-- ==== Sys2Proof/Word.lean ====
section
/-! DEFINITION. The word types of the block's ports and registers: bit vectors of the widths of 10_state.md R21 and R22
and of the request and response words of 30_encoding.md R70 and R71. Bit 0 is the least significant bit (00_scope.md R6,
20_memory.md R52). -/

namespace Sys2Proof

/-- A 64-bit pattern: `req_a`, `rsp_data` and the registers `k`, `b`, `j`, `rd` (R5 `KEY_W`, `B_W`, `J_W`; R21, R22). -/
abbrev Word64 := BitVec 64

/-- A 32-bit pattern: `req_b`, `rsp_iters` and the registers `bk`, `it`, `ri` (R5 `BUCKETS_W`; R21, R22). -/
abbrev Word32 := BitVec 32

/-- The 31-bit shifted state `s` that the shifter yields and the variate and divider take (R73, R142). -/
abbrev Word31 := BitVec 31

/-- The opcode field `req_op` (R5 `OP_W`; R21). -/
abbrev OpBits := BitVec 3

/-- The status code `rsp_status`, and the register `rs` (R21, R22, R76). -/
abbrev StatusBits := BitVec 2

/-- The 99-bit request word `REQ` (R70). -/
abbrev ReqWord := BitVec 99

/-- The 98-bit response word `RSP` (R71). -/
abbrev RspWord := BitVec 98

end Sys2Proof
end

