-- ==== Sys2Proof/Config.lean ====
section
/-! DEFINITION. The implementation parameters of 00_scope.md R5. The spec lets none of them be configured, so each is a
constant. The widths `KEY_W`, `BUCKETS_W`, `RESULT_W`, `B_W`, `J_W`, `OP_W`, `REQ_A_W`, `REQ_B_W`, `RSP_DATA_W`,
`RSP_STATUS_W` and `RSP_ITERS_W` are the widths of the types in Sys2Proof.Word and of the fields of State. The one OPEN
parameter, `STALL` (92_eei_decisions.md D12), is the field `stalls` of State: a model takes it as an argument. -/

namespace Sys2Proof.Config

/-- `LCG_MUL` (R5, R130), 0x27BB2EE687B0B0FD. -/
def lcgMul : Word64 := 2862933555777941757#64

/-- `LCG_INC` (R5, R130). -/
def lcgInc : Word64 := 1#64

/-- `USHR_AMT` (R5, R140). -/
def ushrAmt : Nat := 33

/-- `SCALE` = 2^31 (R5, R160). -/
def scale : Nat := 2147483648

/-- The inverse of `LCG_MUL` modulo 2^64 (R132). -/
def lcgMulInv : Word64 := 0xDFE66807999CEC55#64

end Sys2Proof.Config
end

