-- ==== Sys2Proof/Machine/Datapath.lean ====
section
/-! DEFINITION. The four sub-units of 00_scope.md R2, each a pure function: `int64_lcg_step` (41_lcg_step.md R130),
`int64_unsigned_rshift` (42_unsigned_rshift.md R140), `floating_point_reciprocal_approx` (43_fp_reciprocal.md R150) and
`floor_divider` (44_floor_divider.md R160, by the integer algorithm of R161). The constant factors stand on the left, so
that no proof checker unfolds a product by a large numeral. -/

namespace Sys2Proof.Machine

/-- `LcgStep(x) = (x *w LCG_MUL) +w LCG_INC`, wrapping (R130, R8). -/
def lcgStep (x : Word64) : Word64 := Config.lcgMul * x + Config.lcgInc

/-- The inverse step of R132, `(y -w 1) *w LCG_MUL^-1`. -/
def lcgStepInv (y : Word64) : Word64 := Config.lcgMulInv * (y - Config.lcgInc)

/-- `Ushr33(x) = x >>> 33`, logical (R140, R9). -/
def ushr33 (x : Word64) : Word64 := x >>> Config.ushrAmt

/-- `RecipBits(s)`: sign 0, biased exponent `p + 992`, exact fraction, with `m = s + 1` and `p = floor(log2 m)` (R150). -/
def recipBits (s : Word31) : Word64 :=
  let m := s.toNat + 1
  let p := Nat.log2 m
  0#1 ++ BitVec.ofNat 11 (p + 992) ++ BitVec.ofNat 52 ((m - 2 ^ p) * 2 ^ (52 - p))

/-- One rounding step of R161: the truncated significand `m` goes up if the discarded fraction `rem / H` is above one
half, or is one half and `m` is odd (roundTiesToEven, R10). -/
def roundEven (m rem H : Nat) : Nat :=
  if H < 2 * rem ∨ (2 * rem = H ∧ m % 2 = 1) then m + 1 else m

/-- `trunc(fl(N / D))` on unbounded integers, for `N = 0` or `N >= D >= 1`, by R161's algorithm with `p = E + 52`: `p` is
`floor(log2(N / D))`, so `D * 2^p <= N < D * 2^(p+1)`. The first branch is `E >= 0`, with `H = D * 2^E`. -/
def truncFlQuot (N D : Nat) : Nat :=
  if N = 0 then 0
  else
    let p := Nat.log2 (N / D)
    if 52 ≤ p then
      roundEven (N / (D * 2 ^ (p - 52))) (N % (D * 2 ^ (p - 52))) (D * 2 ^ (p - 52)) * 2 ^ (p - 52)
    else
      roundEven (N * 2 ^ (52 - p) / D) (N * 2 ^ (52 - p) % D) D / 2 ^ (52 - p)

/-- `FloorDiv(n, s) = trunc(fl(n * 2^31 / (s + 1)))` (R160), with `N = n * 2^31` and `D = s + 1` (R161). That R161's
algorithm equals R160 is the spec's word, DEDUCED there, safe (log 12). R165's "exactly when" is too narrow for quotients
of 2^53 and more: the model follows R160, DEDUCED, safe (log 18). -/
def floorDivNat (n s : Nat) : Nat := truncFlQuot (Config.scale * n) (s + 1)

/-- `bits_64(FloorDiv(n, s))` for a 32-bit `n` and a 31-bit `s` (R160, R163). -/
def floorDiv (n : Word32) (s : Word31) : Word64 := BitVec.ofNat 64 (floorDivNat n.toNat s.toNat)

end Sys2Proof.Machine
end

