-- ==== Sys2Proof/Syntax.lean ====
section
/-! DEFINITION. The operations of 30_encoding.md R72 (one constructor per row of spec/opcode_table.json, with the operands
that R73 assembles for it), and the program lines of R78. -/

namespace Sys2Proof

/-- An operation with its operands, as R73 assembles them from the request word. -/
inductive Instr where
  /-- op 000, `ASSIGN key, buckets` (R100). -/
  | assign (key : Word64) (buckets : Word32)
  /-- op 001, `LCG x` (R131). -/
  | lcg (x : Word64)
  /-- op 010, `USHR33 x` (R141). -/
  | ushr33 (x : Word64)
  /-- op 011, `RECIP s` (R151). -/
  | recip (s : Word31)
  /-- op 100, `FLOORDIV n, s` (R163). -/
  | floordiv (n : Word32) (s : Word31)
  /-- op 101, reserved, no operands (R75, R182). -/
  | reserved101
  /-- op 110, reserved, no operands (R75, R182). -/
  | reserved110
  /-- op 111, reserved, no operands (R75, R182). -/
  | reserved111
deriving DecidableEq, Repr

/-- An assembler request line of R78; its operands are the integers written on the line. -/
inductive AsmLine where
  | assign (key buckets : Int)
  | lcg (x : Int)
  | ushr33 (x : Int)
  | recip (s : Int)
  | floordiv (n s : Int)
  /-- The raw form `REQ op, a, b`. -/
  | req (op a b : Int)
deriving DecidableEq, Repr

/-- A line of a test program (R78): a request, or one of the three host-side actions that are not requests. -/
inductive ProgramLine where
  | request (line : AsmLine)
  | reset
  | wait
  | tick (n : Nat)
deriving DecidableEq, Repr

end Sys2Proof
end

