-- ==== Sys2Proof/WellFormed.lean ====
section
/-! DEFINITION. Which terms of the syntax stand for a request word: every operation does (30_encoding.md R73, R74), an
assembler line does when its operands lie in the ranges of R78, and a number does when it fits the 99 bits of R70. -/

namespace Sys2Proof

/-- Every operation is well formed: the operand types have exactly the widths R73 gives the fields, every value of a
field is an operand (R101, R180), and no must-be-zero check exists (R74). -/
def Instr.wellFormed : Instr → Bool
  | .assign _ _ => true
  | .lcg _ => true
  | .ushr33 _ => true
  | .recip _ => true
  | .floordiv _ _ => true
  | .reserved101 => true
  | .reserved110 => true
  | .reserved111 => true

/-- A number is a request word when bit 99 and all above it are 0 (R70). -/
def wordInRange (w : Nat) : Bool := decide (w < 2 ^ 99)

/-- `lo <= x < hi`. -/
def inRange (lo hi x : Int) : Bool := decide (lo ≤ x) && decide (x < hi)

/-- The operand ranges of R78. The table states none for the `x` of `LCG` and `USHR33` nor for the `a` and `b` of `REQ`:
any integer is taken modulo the field's width there. The `op` of `REQ` is a 3-bit value. DESIGN CHOICE, safe (log 10). -/
def AsmLine.wellFormed : AsmLine → Bool
  | .assign key buckets => inRange (-2 ^ 63) (2 ^ 64) key && inRange (-2 ^ 31) (2 ^ 32) buckets
  | .lcg _ => true
  | .ushr33 _ => true
  | .recip s => inRange 0 (2 ^ 31) s
  | .floordiv n s => inRange 0 (2 ^ 32) n && inRange 0 (2 ^ 31) s
  | .req op _ _ => inRange 0 8 op

/-- A program line is well formed when its request is; the host actions always are (R78). -/
def ProgramLine.wellFormed : ProgramLine → Bool
  | .request line => line.wellFormed
  | .reset => true
  | .wait => true
  | .tick _ => true

end Sys2Proof
end

