-- ==== Sys2Proof/Decode.lean ====
section
/-! DEFINITION. Decoding and encoding of the request word REQ (30_encoding.md R70-R74). Decoding reads the field `op` alone
to choose the operation (R72, R77) and assembles the operands from the fixed fields of R73; the bits R73 marks "ignored"
are dropped. -/

namespace Sys2Proof

/-- Why a number is no request word. -/
inductive DecodeRefusal where
  /-- A bit above bit 98 is set: R70's word has 99 bits, and the top bit of its 25-digit form is always 0. Raised by
  `decodeNat`; safe, the ports have no place for such a bit (log 13). -/
  | bitAbove98
deriving DecidableEq, Repr

/-- `REQ = {req_op, req_a, req_b}` (R70). -/
def reqWord (op : OpBits) (a : Word64) (b : Word32) : ReqWord := op ++ a ++ b

/-- `REQ[98:96]`, the opcode (R70). -/
def opField (w : ReqWord) : OpBits := w.extractLsb' 96 3

/-- `REQ[95:32]`, operand A (R70). -/
def aField (w : ReqWord) : Word64 := w.extractLsb' 32 64

/-- `REQ[31:0]`, operand B (R70). -/
def bField (w : ReqWord) : Word32 := w.extractLsb' 0 32

/-- The operation a request word asks for (R72), with its operands (R73). Total: every value of `op` is a named operation
or one of the three reserved ones (R75); the last branch is `op = 111`. -/
def decode (w : ReqWord) : Instr :=
  if opField w = 0b000#3 then .assign (aField w) (bField w)
  else if opField w = 0b001#3 then .lcg (aField w)
  else if opField w = 0b010#3 then .ushr33 (aField w)
  else if opField w = 0b011#3 then .recip ((aField w).extractLsb' 0 31)
  else if opField w = 0b100#3 then .floordiv ((aField w).extractLsb' 0 32) ((bField w).extractLsb' 0 31)
  else if opField w = 0b101#3 then .reserved101
  else if opField w = 0b110#3 then .reserved110
  else .reserved111

/-- Decode a number that stands for a request word (R70), or refuse it by name. -/
def decodeNat (w : Nat) : Except DecodeRefusal Instr :=
  if wordInRange w then .ok (decode (BitVec.ofNat 99 w)) else .error .bitAbove98

/-- The opcode of an operation (R72). -/
def Instr.opcode : Instr → OpBits
  | .assign _ _ => 0b000#3
  | .lcg _ => 0b001#3
  | .ushr33 _ => 0b010#3
  | .recip _ => 0b011#3
  | .floordiv _ _ => 0b100#3
  | .reserved101 => 0b101#3
  | .reserved110 => 0b110#3
  | .reserved111 => 0b111#3

/-- The request word of an operation, every ignored bit 0 as the assembler forms of R78 write it. -/
def encode (i : Instr) : ReqWord :=
  match i with
  | .assign key buckets => reqWord i.opcode key buckets
  | .lcg x => reqWord i.opcode x 0#32
  | .ushr33 x => reqWord i.opcode x 0#32
  | .recip s => reqWord i.opcode (s.setWidth 64) 0#32
  | .floordiv n s => reqWord i.opcode (n.setWidth 64) (s.setWidth 32)
  | .reserved101 => reqWord i.opcode 0#64 0#32
  | .reserved110 => reqWord i.opcode 0#64 0#32
  | .reserved111 => reqWord i.opcode 0#64 0#32

/-- The bits of REQ that the operation with opcode `op` does not ignore, its opcode among them (R73). -/
def usedBits (op : OpBits) : ReqWord :=
  if op = 0b000#3 then reqWord 0b111#3 0xFFFFFFFFFFFFFFFF#64 0xFFFFFFFF#32
  else if op = 0b001#3 then reqWord 0b111#3 0xFFFFFFFFFFFFFFFF#64 0#32
  else if op = 0b010#3 then reqWord 0b111#3 0xFFFFFFFFFFFFFFFF#64 0#32
  else if op = 0b011#3 then reqWord 0b111#3 0x7FFFFFFF#64 0#32
  else if op = 0b100#3 then reqWord 0b111#3 0xFFFFFFFF#64 0x7FFFFFFF#32
  else reqWord 0b111#3 0#64 0#32

/-- The operation the decoder reads from an instruction whose bits are `w`; bits from `nbits` on count as 0. -/
def decodeTableWord (nbits w : Nat) : Option Instr :=
  match decodeNat (w % 2 ^ nbits) with
  | .ok i => some i
  | .error _ => none

end Sys2Proof
end

