-- ==== Sys2Proof/Machine/State.lean ====
section
/-! DEFINITION. The machine's state: the registers of 10_state.md R22, and the model's own three fields (what the host
will drive, the STALL draws, what the host has recorded). Plain data. -/

namespace Sys2Proof.Machine

/-- The sequencer state `st` (R22, R37): three values and no fourth code (U4). -/
inductive SeqState where
  | idle
  | iter
  | resp
deriving DecidableEq, Repr

/-- The levels on the input ports at one rising edge (R21). -/
structure PortIn where
  rst : Bool
  reqValid : Bool
  reqOp : OpBits
  reqA : Word64
  reqB : Word32
  rspReady : Bool
deriving DecidableEq, Repr

/-- What the host does next. The last four are R78's; `edge` is any host at all, for one edge. -/
inductive HostAction where
  /-- Drive these levels for one rising edge, and, if `sample`, read `rsp_data`, `rsp_status` and `rsp_iters` in the
  cycle that this edge ends (R205). -/
  | edge (ports : PortIn) (sample : Bool)
  /-- Drive `req_valid = 1` with this word until an edge accepts it (R78). -/
  | request (word : ReqWord)
  /-- `RESET`: hold `rst = 1` for one rising edge (R78). -/
  | reset
  /-- `WAIT`: hold `rsp_ready = 1` until a response is delivered, and record it (R78). -/
  | wait
  /-- `TICK n`: let `n` rising edges pass with `req_valid = 0` and `rsp_ready = 0` (R78). -/
  | tick (n : Nat)
deriving DecidableEq, Repr

/-- A response, `{status, iters, data}` (R71). -/
structure Response where
  data : Word64
  status : StatusBits
  iters : Word32
deriving DecidableEq, Repr

/-- The state. `st` to `ri` are exactly the registers of R22; the last three fields are the model's own. -/
structure State where
  /-- Sequencer state. -/
  st : SeqState
  /-- LCG state, a bit pattern. -/
  k : Word64
  /-- Candidate bucket, read as `sint_64`. -/
  b : Word64
  /-- Next-candidate index, read as `sint_64`. -/
  j : Word64
  /-- Latched bucket count, read as `sint_32`. -/
  bk : Word32
  /-- Iteration counter, read as `uint_32`. -/
  it : Word32
  /-- Response data. -/
  rd : Word64
  /-- Response status code (R76). -/
  rs : StatusBits
  /-- Response iteration count. -/
  ri : Word32
  /-- The host's coming actions, the next one first. DESIGN CHOICE, unsafe for a claim about what follows the end of the
  list (log 3). -/
  script : List HostAction
  /-- The draws of the OPEN parameter STALL (R211, D12), one per coming edge, `true` for a stall; past the end none
  stalls. DESIGN CHOICE, safe (log 5). -/
  stalls : List Bool
  /-- The responses the host has read, oldest first (R56, R78). DESIGN CHOICE, safe: no step reads it (log 14). -/
  record : List Response
deriving DecidableEq, Repr

/-- The machine right after a reset edge (R29, R200, R201): `st = IDLE`. R29 leaves every other register unspecified;
the 0 here is a DESIGN CHOICE, unsafe (log 1). No program is loaded (log 4) and `STALL = none` (D12, log 5). -/
def State.reset : State where
  st := .idle
  k := 0#64
  b := 0#64
  j := 0#64
  bk := 0#32
  it := 0#32
  rd := 0#64
  rs := 0#2
  ri := 0#32
  script := []
  stalls := []
  record := []

/-- The one reason a step can fault. -/
inductive Fault where
  /-- The host read `rsp_data`, `rsp_status` or `rsp_iters` while `rsp_valid = 0` (R205, U3, D28: "a model faults on such
  a read"). Raised by `State.readRsp`, on behalf of the host; the block itself raises nothing (R180). Safe. -/
  | rspReadWhileInvalid
deriving DecidableEq, Repr

/-- The reasons the model gives no meaning. -/
inductive Refusal where
  /-- No meaning for this instruction yet. Raised by no arm of `exec` (every operation has its meaning); safe. -/
  | notModelled (mnemonic : String)
deriving DecidableEq, Repr

end Sys2Proof.Machine
end

