-- ==== Sys2Proof/Machine/Flags.lean ====
section
/-! DEFINITION. The status codes of 30_encoding.md R76 and the order in which a response's one status is decided
(60_exceptions.md R183). The block has no flags or condition codes (10_state.md R25): this is its only status. -/

namespace Sys2Proof.Machine

/-- The status names of R76. -/
inductive Status where
  | ok
  | clamped
  | illegalOp
deriving DecidableEq, Repr

/-- The code on `rsp_status` (R76). Code 11 belongs to none. -/
def Status.code : Status → StatusBits
  | .ok => 0b00#2
  | .clamped => 0b01#2
  | .illegalOp => 0b10#2

/-- `sint_32(buckets) <= 0`, the clamp's test (R102). -/
def clampTest (buckets : Word32) : Bool := decide (buckets.toInt ≤ 0)

/-- Is the opcode reserved (R75)? -/
def reservedOp (op : OpBits) : Bool := op == 0b101#3 || op == 0b110#3 || op == 0b111#3

/-- The status of the response to a request, decided in the order of R183. -/
def requestStatus (w : ReqWord) : Status :=
  if reservedOp (opField w) then .illegalOp
  else if opField w = 0b000#3 ∧ clampTest (bField w) = true then .clamped
  else .ok

end Sys2Proof.Machine
end

