-- ==== Sys2Proof/Machine/Operands.lean ====
section
/-! DEFINITION. The input ports at the coming edge: the levels each host action drives (30_encoding.md R78) and the request
word they carry (R70). Operand assembly from that word (R73) is Sys2Proof.decode. -/

namespace Sys2Proof.Machine

/-- The request word on the ports: the three request ports sampled together (R70). -/
def PortIn.word (p : PortIn) : ReqWord := reqWord p.reqOp p.reqA p.reqB

/-- Every input low. -/
def PortIn.quiet : PortIn where
  rst := false
  reqValid := false
  reqOp := 0#3
  reqA := 0#64
  reqB := 0#32
  rspReady := false

/-- An offered request and nothing else. -/
def PortIn.offer (w : ReqWord) : PortIn :=
  { PortIn.quiet with reqValid := true, reqOp := opField w, reqA := aField w, reqB := bField w }

/-- The levels a host action holds at an edge (R78). The inputs that R78 does not mention are low. DESIGN CHOICE, unsafe
(log 11). -/
def HostAction.ports : HostAction → PortIn
  | .edge p _ => p
  | .request w => PortIn.offer w
  | .reset => { PortIn.quiet with rst := true }
  | .wait => { PortIn.quiet with rspReady := true }
  | .tick _ => PortIn.quiet

/-- The action in force at the coming edge and the actions after it. `TICK 0` takes no edge; a host with no action left
ticks. DESIGN CHOICE (log 3). -/
def nextAction : List HostAction → HostAction × List HostAction
  | [] => (.tick 1, [])
  | .tick 0 :: rest => nextAction rest
  | a :: rest => (a, rest)

/-- The host action in force at the coming edge. -/
def State.action (s : State) : HostAction := (nextAction s.script).1

/-- The levels on the input ports at the coming edge (R21). -/
def State.ports (s : State) : PortIn := s.action.ports

/-- Is the coming edge drawn as a stall edge (R211)? -/
def State.stallNow (s : State) : Bool := s.stalls.headD false

end Sys2Proof.Machine
end

