-- ==== Sys2Proof/Machine/Ops.lean ====
section
/-! DEFINITION. The shared operations of the block: which rule an edge falls under (10_state.md R30), the register writes
of each rule (R31-R34, R200), the output ports (R23) and the host's read of them (R205), and what the host's side of an
edge does to the model's own fields. There is no exception entry or return: the block has no trap (60_exceptions.md R180,
R185). -/

namespace Sys2Proof.Machine

/-- The loop registers that a body of R105 reads and writes. -/
structure LoopRegs where
  k : Word64
  b : Word64
  j : Word64
  it : Word32
deriving DecidableEq, Repr

/-- Loop initialisation: `k = key`, `b = -1`, `j = 0`, `it = 0` (R103, R32). -/
def LoopRegs.init (key : Word64) : LoopRegs where
  k := key
  b := -1#64
  j := 0#64
  it := 0#32

/-- The loop condition `sint_64(j) < sext_64(bk)`, signed (R104, R33). -/
def LoopRegs.continues (l : LoopRegs) (bk : Word32) : Bool := l.j.slt (bk.signExtend 64)

/-- The divider's numerator `n = b + 1` with the new `b = j`, on the 32 bits of the divider's input (R33, R73). In every
state a run reaches, `j + 1` fits them (R109). DESIGN CHOICE, unsafe in the states no run reaches (log 9). -/
def LoopRegs.numerator (l : LoopRegs) : Word32 := (l.j + 1#64).setWidth 32

/-- One loop body (R105, R33): `b := j`, `k := LcgStep(k)`, `j := FloorDiv(b + 1, Ushr33(k))`, `it := it + 1`. The shifted
state has 31 bits (R142). -/
def LoopRegs.body (l : LoopRegs) : LoopRegs where
  k := lcgStep l.k
  b := l.j
  j := floorDiv l.numerator ((ushr33 (lcgStep l.k)).setWidth 31)
  it := l.it + 1#32

/-- The loop's result `zext_64(b[31:0])` (R106). -/
def LoopRegs.result (l : LoopRegs) : Word64 := (l.b.setWidth 32).setWidth 64

/-- The loop registers of a state. -/
def State.loopRegs (s : State) : LoopRegs where
  k := s.k
  b := s.b
  j := s.j
  it := s.it

/-- Write the loop registers. -/
def State.setLoopRegs (s : State) (l : LoopRegs) : State :=
  { s with k := l.k, b := l.b, j := l.j, it := l.it }

/-- `rd <- data; rs <- status; ri <- iters; st <- RESP`: the one way a response is written (R32, R33, R35). -/
def State.answer (s : State) (data : Word64) (status : Status) (iters : Word32) : State :=
  { s with rd := data, rs := status.code, ri := iters, st := .resp }

/-- The non-clamped ASSIGN's writes at its accepting edge (R32). -/
def State.startLoop (s : State) (key : Word64) (buckets : Word32) : State :=
  { s.setLoopRegs (LoopRegs.init key) with bk := buckets, st := .iter }

/-- An edge in ITER: one loop body, or the loop's exit (R33). -/
def State.loopEdge (s : State) : State :=
  if s.loopRegs.continues s.bk then s.setLoopRegs s.loopRegs.body
  else s.answer s.loopRegs.result .ok s.it

/-- A reset edge: `st <- IDLE`, and "No other register is written" (R200). R29 calls their values unspecified after it;
keeping them is DEDUCED, unsafe (log 2). -/
def State.resetEdge (s : State) : State := { s with st := .idle }

/-- A stall edge: nothing changes (R211). -/
def State.stallEdge (s : State) : State := s

/-- IDLE with no request: nothing changes (R31). -/
def State.quietEdge (s : State) : State := s

/-- RESP with `rsp_ready = 0`: nothing changes (R34). -/
def State.holdEdge (s : State) : State := s

/-- RESP with `rsp_ready = 1`: the response is delivered, `st <- IDLE` (R34). -/
def State.deliverEdge (s : State) : State := { s with st := .idle }

/-- Which rule an edge falls under. -/
inductive EdgeKind where
  | reset
  | stall
  | quiet
  | accept (word : ReqWord)
  | loop
  | deliver
  | hold
deriving DecidableEq, Repr

/-- The order of precedence of R30, with R211's stall edges. Reset wins over a stall: DEDUCED, safe (log 6). A stalled
edge transfers nothing, even with valid and ready both 1: DEDUCED, unsafe (log 7). -/
def edgeKind (p : PortIn) (stall : Bool) (st : SeqState) : EdgeKind :=
  if p.rst then .reset
  else if stall then .stall
  else match st with
    | .idle => if p.reqValid then .accept p.word else .quiet
    | .iter => .loop
    | .resp => if p.rspReady then .deliver else .hold

/-- The rule the coming edge of a state falls under. -/
def State.kind (s : State) : EdgeKind := edgeKind s.ports s.stallNow s.st

/-- Output port `req_ready` (R23). -/
def State.reqReady (s : State) : Bool := s.st == .idle

/-- Output port `rsp_valid` (R23). -/
def State.rspValid (s : State) : Bool := s.st == .resp

/-- A host read of `rsp_data`, `rsp_status` and `rsp_iters`: the registers `rd`, `rs`, `ri` while `rsp_valid = 1` (R23),
a fault at any other time (R205). -/
def State.readRsp (s : State) : Except Fault Response :=
  if s.rspValid then .ok { data := s.rd, status := s.rs, iters := s.ri } else .error .rspReadWhileInvalid

/-- Does the host read the response ports in the cycle that the coming edge ends? `WAIT` reads the response at the edge
that delivers it (R78), a raw edge when it says so. That the read comes before the edge is DEDUCED, safe (log 8). -/
def State.samples (s : State) : Bool :=
  match s.action with
  | .edge _ sample => sample
  | .wait => s.kind == .deliver
  | _ => false

/-- What the host's read gives: nothing if it does not read, a response, or the fault of R205. -/
def State.sampled (s : State) : Except Fault (Option Response) :=
  if s.samples then s.readRsp.map some else .ok none

/-- The host's actions after an edge of this kind (R78): a request line stays until an edge accepts it, `WAIT` until a
response is delivered, `TICK` counts down, and the others take one edge. -/
def scriptAfter (kind : EdgeKind) (script : List HostAction) : List HostAction :=
  match nextAction script with
  | (.edge _ _, rest) => rest
  | (.reset, rest) => rest
  | (.request w, rest) => match kind with
    | .accept _ => rest
    | _ => .request w :: rest
  | (.wait, rest) => match kind with
    | .deliver => rest
    | _ => .wait :: rest
  | (.tick n, rest) => if n ≤ 1 then rest else .tick (n - 1) :: rest

/-- The host's side of an edge: `s` is the state before it, `t` the state with the block's registers after it, `seen` what
the host read. One STALL draw is used per edge (log 5). -/
def State.hostAfter (s : State) (seen : Option Response) (t : State) : State :=
  { t with
    script := scriptAfter s.kind s.script
    stalls := s.stalls.tail
    record := s.record ++ seen.toList }

end Sys2Proof.Machine
end

