-- ==== Sys2Proof/Machine/Assign.lean ====
section
/-! DEFINITION. The meaning of ASSIGN at its accepting edge (10_state.md R32, 40_assign.md R100-R103). The loop itself is
one edge per body (R33, State.loopEdge), so that only reset cancels it (70_reset_and_hazards.md R206). -/

namespace Sys2Proof.Machine

/-- `ASSIGN key, buckets`: with `buckets <= 0` the clamped response, otherwise the loop starts (R102, R103, R32).
It does not look at `st`: only an accepting edge calls it. DESIGN CHOICE, safe (log 19). -/
def execAssign (key : Word64) (buckets : Word32) (s : State) : Host.Outcome State Fault Refusal :=
  if clampTest buckets then .next (s.answer 0#64 .clamped 0#32)
  else .next (s.startLoop key buckets)

end Sys2Proof.Machine
end

