-- ==== Sys2Proof/Machine/Diagnostic.lean ====
section
/-! DEFINITION. The meanings of the four diagnostic operations, each of which runs one sub-unit on the host's operands and
writes only the response registers (10_state.md R32, 92_eei_decisions.md D6). -/

namespace Sys2Proof.Machine

/-- `LCG x` (41_lcg_step.md R131). -/
def execLcg (x : Word64) (s : State) : Host.Outcome State Fault Refusal :=
  .next (s.answer (lcgStep x) .ok 0#32)

/-- `USHR33 x` (42_unsigned_rshift.md R141). -/
def execUshr33 (x : Word64) (s : State) : Host.Outcome State Fault Refusal :=
  .next (s.answer (ushr33 x) .ok 0#32)

/-- `RECIP s` (43_fp_reciprocal.md R151). -/
def execRecip (v : Word31) (s : State) : Host.Outcome State Fault Refusal :=
  .next (s.answer (recipBits v) .ok 0#32)

/-- `FLOORDIV n, s` (44_floor_divider.md R163). -/
def execFloordiv (n : Word32) (v : Word31) (s : State) : Host.Outcome State Fault Refusal :=
  .next (s.answer (floorDiv n v) .ok 0#32)

end Sys2Proof.Machine
end

