-- ==== Sys2Proof/Machine/Reserved.lean ====
section
/-! DEFINITION. The meanings of the three reserved opcodes: accepted and answered with `data = 0`, `status = ILLEGAL_OP`
and `iters = 0`, and no other register written (60_exceptions.md R182, 30_encoding.md R75). -/

namespace Sys2Proof.Machine

/-- The response to a reserved opcode (R182). -/
def State.answerIllegal (s : State) : State := s.answer 0#64 .illegalOp 0#32

/-- Opcode 101 (R182). -/
def execReserved101 (s : State) : Host.Outcome State Fault Refusal := .next s.answerIllegal

/-- Opcode 110 (R182). -/
def execReserved110 (s : State) : Host.Outcome State Fault Refusal := .next s.answerIllegal

/-- Opcode 111 (R182). -/
def execReserved111 (s : State) : Host.Outcome State Fault Refusal := .next s.answerIllegal

end Sys2Proof.Machine
end

