-- ==== Sys2Proof/Machine/Dispatch.lean ====
section
/-! DEFINITION. The dispatch of 10_state.md R32: what the accepting edge does, one arm per operation. -/

namespace Sys2Proof.Machine

def exec (i : Instr) (s : State) : Host.Outcome State Fault Refusal :=
  match i with
  | .assign key buckets => Sys2Proof.Machine.execAssign key buckets s
  | .lcg x => Sys2Proof.Machine.execLcg x s
  | .ushr33 x => Sys2Proof.Machine.execUshr33 x s
  | .recip v => Sys2Proof.Machine.execRecip v s
  | .floordiv n v => Sys2Proof.Machine.execFloordiv n v s
  | .reserved101 => Sys2Proof.Machine.execReserved101 s
  | .reserved110 => Sys2Proof.Machine.execReserved110 s
  | .reserved111 => Sys2Proof.Machine.execReserved111 s

end Sys2Proof.Machine
end

