-- ==== Sys2Proof/Machine/Step.lean ====
section
/-! DEFINITION. The step: one rising clock edge (10_state.md R30), together with the host's side of it. -/

namespace Sys2Proof.Machine

/-- The block's side of one rising edge, for the levels `p` on its input ports (R30). `stall` says whether R211's draw
makes the edge a stall edge; the reference timing has none. -/
def blockEdge (p : PortIn) (stall : Bool) (s : State) : Host.Outcome State Fault Refusal :=
  match edgeKind p stall s.st with
  | .reset => .next s.resetEdge
  | .stall => .next s.stallEdge
  | .quiet => .next s.quietEdge
  | .accept word => exec (decode word) s
  | .loop => .next s.loopEdge
  | .deliver => .next s.deliverEdge
  | .hold => .next s.holdEdge

/-- One rising edge: the host's read of the response ports in the cycle before it (R205), the block's edge with the
levels the host drives, and the host's own progress. -/
def step (s : State) : Host.Outcome State Fault Refusal :=
  match s.sampled with
  | .error f => .fault f
  | .ok seen =>
    match blockEdge s.ports s.stallNow s with
    | .next t => .next (s.hostAfter seen t)
    | .fault f => .fault f
    | .refused r => .refused r

/-- The block fetches no instruction (R24): an operation starts when a request is accepted, in IDLE, at an edge without
reset or stall. So the word is offered as the host's next action, `st` is IDLE and the coming edge is no stall edge. At
State.reset only the script changes (log 4). -/
def State.withFetchWord (s : State) (nbits w : Nat) : State :=
  { s with
    st := .idle
    script := .request (BitVec.ofNat 99 (w % 2 ^ nbits)) :: s.script
    stalls := match s.stalls with
      | [] => []
      | _ :: rest => false :: rest }

end Sys2Proof.Machine
end

