-- ==== Sys2Proof/Machine/Assembler.lean ====
section
/-! DEFINITION. The assembler forms and host actions of 30_encoding.md R78: the request word each line stands for, the
range errors, and the reading of a line's text. There are no pseudo-instructions (R79): each line gives one action. -/

namespace Sys2Proof.Machine

/-- Why a line is refused. Raised by the assembler, before any step; safe. -/
inductive AsmError where
  /-- "An operand outside its range is an assembly error" (R78). -/
  | operandOutOfRange
  /-- The first word of the line is no mnemonic of R78. -/
  | unknownMnemonic
  /-- An operand is no decimal integer and no `0x` number, or there are too many or too few of them (R78). -/
  | badOperands
deriving DecidableEq, Repr

/-- The word of R78's table row, for operands in range. -/
def asmWord : AsmLine → ReqWord
  | .assign key buckets => reqWord 0b000#3 (BitVec.ofInt 64 key) (BitVec.ofInt 32 buckets)
  | .lcg x => reqWord 0b001#3 (BitVec.ofInt 64 x) 0#32
  | .ushr33 x => reqWord 0b010#3 (BitVec.ofInt 64 x) 0#32
  | .recip s => reqWord 0b011#3 ((BitVec.ofInt 31 s).setWidth 64) 0#32
  | .floordiv n s => reqWord 0b100#3 ((BitVec.ofInt 32 n).setWidth 64) ((BitVec.ofInt 31 s).setWidth 32)
  | .req op a b => reqWord (BitVec.ofInt 3 op) (BitVec.ofInt 64 a) (BitVec.ofInt 32 b)

/-- Assemble a request line, or report the operand out of range (R78). -/
def assembleLine (line : AsmLine) : Except AsmError ReqWord :=
  if line.wellFormed then .ok (asmWord line) else .error .operandOutOfRange

/-- The host action a program line stands for (R78). -/
def lineAction : ProgramLine → Except AsmError HostAction
  | .request line => (assembleLine line).map .request
  | .reset => .ok .reset
  | .wait => .ok .wait
  | .tick n => .ok (.tick n)

/-- The host script of a program, or its first error. -/
def assembleProgram : List ProgramLine → Except AsmError (List HostAction)
  | [] => .ok []
  | line :: rest =>
    match lineAction line with
    | .error e => .error e
    | .ok a =>
      match assembleProgram rest with
      | .error e => .error e
      | .ok as => .ok (a :: as)

/-- The value of a hexadecimal digit, upper or lower case. -/
def hexDigit (c : Char) : Option Nat :=
  if 48 ≤ c.toNat ∧ c.toNat ≤ 57 then some (c.toNat - 48)
  else if 65 ≤ c.toNat ∧ c.toNat ≤ 70 then some (c.toNat - 55)
  else if 97 ≤ c.toNat ∧ c.toNat ≤ 102 then some (c.toNat - 87)
  else none

/-- Digits of a base, most significant first, after the value `acc` of those before them. -/
def digits (base : Nat) : Nat → List Char → Option Nat
  | acc, [] => some acc
  | acc, c :: rest =>
    match hexDigit c with
    | some d => if d < base then digits base (acc * base + d) rest else none
    | none => none

/-- Remove the blanks before and after a token (log 10). -/
def trimBlanks (cs : List Char) : List Char :=
  ((cs.dropWhile (· == ' ')).reverse.dropWhile (· == ' ')).reverse

/-- An operand: "a decimal integer, which may be negative, or `0x` followed by hex digits" (R78). -/
def parseOperand (cs : List Char) : Option Int :=
  match trimBlanks cs with
  | [] => none
  | '0' :: 'x' :: d :: rest => (digits 16 0 (d :: rest)).map Int.ofNat
  | '-' :: d :: rest => (digits 10 0 (d :: rest)).map (fun v => -(Int.ofNat v))
  | d :: rest => (digits 10 0 (d :: rest)).map Int.ofNat

/-- The parts between commas. -/
def splitCommas : List Char → List (List Char)
  | [] => [[]]
  | ',' :: rest => [] :: splitCommas rest
  | c :: rest =>
    match splitCommas rest with
    | [] => [[c]]
    | part :: parts => (c :: part) :: parts

/-- All operands, or none if one is not a number. -/
def parseOperands : List (List Char) → Option (List Int)
  | [] => some []
  | part :: parts =>
    match parseOperand part, parseOperands parts with
    | some v, some vs => some (v :: vs)
    | _, _ => none

/-- The line of a mnemonic with its operands (R78's syntax column, and its three host actions). -/
def lineOf (mnemonic : List Char) (ops : List Int) : Except AsmError ProgramLine :=
  if mnemonic = ['A', 'S', 'S', 'I', 'G', 'N'] then
    match ops with
    | [key, buckets] => .ok (.request (.assign key buckets))
    | _ => .error .badOperands
  else if mnemonic = ['L', 'C', 'G'] then
    match ops with
    | [x] => .ok (.request (.lcg x))
    | _ => .error .badOperands
  else if mnemonic = ['U', 'S', 'H', 'R', '3', '3'] then
    match ops with
    | [x] => .ok (.request (.ushr33 x))
    | _ => .error .badOperands
  else if mnemonic = ['R', 'E', 'C', 'I', 'P'] then
    match ops with
    | [s] => .ok (.request (.recip s))
    | _ => .error .badOperands
  else if mnemonic = ['F', 'L', 'O', 'O', 'R', 'D', 'I', 'V'] then
    match ops with
    | [n, s] => .ok (.request (.floordiv n s))
    | _ => .error .badOperands
  else if mnemonic = ['R', 'E', 'Q'] then
    match ops with
    | [op, a, b] => .ok (.request (.req op a b))
    | _ => .error .badOperands
  else if mnemonic = ['R', 'E', 'S', 'E', 'T'] then
    match ops with
    | [] => .ok .reset
    | _ => .error .badOperands
  else if mnemonic = ['W', 'A', 'I', 'T'] then
    match ops with
    | [] => .ok .wait
    | _ => .error .badOperands
  else if mnemonic = ['T', 'I', 'C', 'K'] then
    match ops with
    | [.ofNat n] => .ok (.tick n)
    | _ => .error .badOperands
  else .error .unknownMnemonic

/-- The text before a comment. R78 mentions none; the program lines of 95_test_vectors.md section 3 carry trailing ones
after `--`, which the model drops: DESIGN CHOICE, safe (log 10). No operand of R78 holds `--`. -/
def dropComment : List Char → List Char
  | [] => []
  | '-' :: '-' :: _ => []
  | c :: rest => c :: dropComment rest

/-- Read one line: "a mnemonic, then its operands separated by commas" (R78). Blanks around the tokens are skipped, a
comment from `--` to the end of the line is dropped, and a line with nothing else on it is refused: DESIGN CHOICE, safe
(log 10). -/
def parseLine (cs : List Char) : Except AsmError ProgramLine :=
  let text := trimBlanks (dropComment cs)
  let mnemonic := text.takeWhile (· != ' ')
  let rest := trimBlanks (text.dropWhile (· != ' '))
  if rest = [] then lineOf mnemonic []
  else
    match parseOperands (splitCommas rest) with
    | some ops => lineOf mnemonic ops
    | none => .error .badOperands

end Sys2Proof.Machine
end

