-- ==== Sys2Proof/Machine/Binary64.lean ====
section
/-! DEFINITION. The real-number side of the floating-point units, over the rationals: the binary64 format
(43_fp_reciprocal.md R153), the rounding `fl` (00_scope.md R10), `trunc` (R11), `Recip` (R150) and `FloorDiv` as R160
writes it. The datapath's integer functions are held to these by the statements of the package. -/

namespace Sys2Proof.Machine

/-- The value of a positive or negative normal binary64 word, `(-1)^sign * (1 + frac / 2^52) * 2^(exp - 1023)`; `none`
for the zeros, subnormals, infinities and NaNs that never arise (R153). -/
def binary64Value (w : Word64) : Option ℚ :=
  let e := (w.extractLsb' 52 11).toNat
  if 1 ≤ e ∧ e ≤ 2046 then
    some ((if w.getLsbD 63 then -1 else 1) * (1 + (w.extractLsb' 0 52).toNat / 2 ^ 52) * (2 : ℚ) ^ ((e : Int) - 1023))
  else none

/-- The unit `u = 2^(floor(log2 q) - 52)` in the last place of a positive rational (R10). -/
def ulp (q : ℚ) : ℚ := (2 : ℚ) ^ (Int.log 2 q - 52)

/-- `fl(q)`: the binary64 value nearest a positive rational, ties to the even significand (R10). No upper or lower
exponent bound is applied: every rational the spec rounds lies in `[2^-31, 2^63)` (R10). -/
def fl (q : ℚ) : ℚ :=
  let m := q / ulp q
  let m0 := ⌊m⌋
  if m - m0 > 1 / 2 ∨ (m - m0 = 1 / 2 ∧ m0 % 2 = 1) then (m0 + 1) * ulp q else m0 * ulp q

/-- `trunc(x)` for `x >= 0`, where it is the floor (R11). -/
def truncNonneg (x : ℚ) : Nat := ⌊x⌋.toNat

/-- `Recip(s) = (s + 1) * 2^-31`, exact (R150). -/
def recip (s : Nat) : ℚ := ((s : ℚ) + 1) / 2 ^ 31

/-- `FloorDiv(n, s) = trunc(fl(n / Recip(s)))` (R160), and 0 for `n = 0` (R161, R162), where `fl` is not defined. -/
def floorDivReal (n s : Nat) : Nat := if n = 0 then 0 else truncNonneg (fl (n / recip s))

end Sys2Proof.Machine
end

