-- ==== Sys2Proof/Machine/Response.lean ====
section
/-! DEFINITION. The response word RSP of 30_encoding.md R71 and its reading by the host. -/

namespace Sys2Proof.Machine

/-- Why a response word is no response of this block. -/
inductive ResponseRefusal where
  /-- Status code 11, which no response carries (R76, U5). Raised by `decodeRsp`; safe. -/
  | statusNeverProduced
deriving DecidableEq, Repr

/-- `RSP = {status, iters, data}` (R71). -/
def Response.word (r : Response) : RspWord := r.status ++ r.iters ++ r.data

/-- The name of a status code; 11 has none (R76). -/
def statusOfCode (c : StatusBits) : Option Status :=
  if c = 0b00#2 then some .ok
  else if c = 0b01#2 then some .clamped
  else if c = 0b10#2 then some .illegalOp
  else none

/-- Read a response word (R71), refusing the status code that is never produced (U5). -/
def decodeRsp (w : RspWord) : Except ResponseRefusal Response :=
  match statusOfCode (w.extractLsb' 96 2) with
  | some st => .ok { data := w.extractLsb' 0 64, status := st.code, iters := w.extractLsb' 64 32 }
  | none => .error .statusNeverProduced

end Sys2Proof.Machine
end

