-- ==== Sys2Proof/Machine/Transaction.lean ====
section
/-! DEFINITION. The transaction level of 00_scope.md R13: each operation as a pure function from the accepted request to the
response (40_assign.md R100, 41_lcg_step.md R131, 42_unsigned_rshift.md R141, 43_fp_reciprocal.md R151,
44_floor_divider.md R163, 60_exceptions.md R182). -/

namespace Sys2Proof.Machine

/-- The loop of R100, with at most `fuel` bodies. -/
def assignLoop : Nat → Word32 → LoopRegs → LoopRegs
  | 0, _, l => l
  | fuel + 1, bk, l => if l.continues bk then assignLoop fuel bk l.body else l

/-- `Assign(key, buckets)` (R100). The loop ends after at most `buckets` bodies (R109), which is the fuel it is given. -/
def assign (key : Word64) (buckets : Word32) : Response :=
  if clampTest buckets then { data := 0#64, status := Status.clamped.code, iters := 0#32 }
  else
    let l := assignLoop buckets.toNat buckets (LoopRegs.init key)
    { data := l.result, status := Status.ok.code, iters := l.it }

/-- The response to an operation (R13). -/
def respond : Instr → Response
  | .assign key buckets => assign key buckets
  | .lcg x => { data := lcgStep x, status := Status.ok.code, iters := 0#32 }
  | .ushr33 x => { data := ushr33 x, status := Status.ok.code, iters := 0#32 }
  | .recip v => { data := recipBits v, status := Status.ok.code, iters := 0#32 }
  | .floordiv n v => { data := floorDiv n v, status := Status.ok.code, iters := 0#32 }
  | .reserved101 => { data := 0#64, status := Status.illegalOp.code, iters := 0#32 }
  | .reserved110 => { data := 0#64, status := Status.illegalOp.code, iters := 0#32 }
  | .reserved111 => { data := 0#64, status := Status.illegalOp.code, iters := 0#32 }

end Sys2Proof.Machine
end

