-- ==== Sys2Proof/Safety.lean ====
section
/-! DEFINITION. The terms the statements use: the invariant of the block's registers, the requests accepted and responses
delivered along a run, runs of the block for given port levels, agreement of two states on all that can still matter, and
the set of jump indices of a key. -/

namespace Sys2Proof.Machine

/-- What holds in ITER (R109): a positive bucket count, and either no body has run, or `b` is a bucket, the next index is
above it and below 2^62, and there have been at least 1 and at most `b + 1` bodies. -/
def State.IterOk (s : State) : Prop :=
  1 ≤ s.bk.toInt ∧
  ((s.b = -1#64 ∧ s.j = 0#64 ∧ s.it = 0#32) ∨
   (0 ≤ s.b.toInt ∧ s.b.toInt < s.bk.toInt ∧ s.b.toInt < s.j.toInt ∧ s.j.toInt ≤ (2 ^ 31 - 1) * 2 ^ 31 ∧
    1 ≤ s.it.toNat ∧ (s.it.toNat : Int) ≤ s.b.toInt + 1))

/-- What holds in RESP: a status code that R76 names; data and iteration count 0 with `CLAMPED` and `ILLEGAL_OP`; and an
iteration count that some bucket count allows (R76, R108). -/
def State.RespOk (s : State) : Prop :=
  (s.rs = Status.ok.code ∨ (s.rs = Status.clamped.code ∨ s.rs = Status.illegalOp.code) ∧ s.rd = 0#64 ∧ s.ri = 0#32) ∧
  s.ri.toNat ≤ 2 ^ 31 - 1

/-- The invariant of the block's registers. -/
def State.Inv (s : State) : Prop := (s.st = .iter → s.IterOk) ∧ (s.st = .resp → s.RespOk)

/-- The request accepted at the coming edge. -/
def State.accepted (s : State) : Option Instr :=
  match s.kind with
  | .accept w => some (decode w)
  | _ => none

/-- The response delivered at the coming edge (R34, R56). -/
def State.delivered (s : State) : Option Response :=
  match s.kind with
  | .deliver => some { data := s.rd, status := s.rs, iters := s.ri }
  | _ => none

/-- The requests accepted in the next `n` edges, in order; a run that stops accepts no more. -/
def acceptedIn : Nat → State → List Instr
  | 0, _ => []
  | n + 1, s =>
    match step s with
    | .next t => s.accepted.toList ++ acceptedIn n t
    | _ => []

/-- The responses delivered in the next `n` edges, in order. -/
def deliveredIn : Nat → State → List Response
  | 0, _ => []
  | n + 1, s =>
    match step s with
    | .next t => s.delivered.toList ++ deliveredIn n t
    | _ => []

/-- Is none of the next `n` edges a reset edge? -/
def noResetIn : Nat → State → Bool
  | 0, _ => true
  | n + 1, s =>
    match step s with
    | .next t => s.kind != .reset && noResetIn n t
    | _ => true

/-- One edge's inputs to the block: the levels on its ports, and whether the edge is a stall edge (R211). -/
structure EdgeIn where
  ports : PortIn
  stall : Bool
deriving DecidableEq, Repr

/-- The block alone over a sequence of edges. -/
def blockRun : List EdgeIn → State → Host.Outcome State Fault Refusal
  | [], s => .next s
  | e :: es, s =>
    match blockEdge e.ports e.stall s with
    | .next t => blockRun es t
    | .fault f => .fault f
    | .refused r => .refused r

/-- The number of edges of a sequence that are not stall edges. -/
def liveEdges (es : List EdgeIn) : Nat := (es.filter (fun e => !e.stall)).length

/-- The edges an operation takes from its acceptance to RESP, after the accepting edge: the bodies and the exit of an
unclamped ASSIGN, none otherwise (R210). -/
def edgesToResp : Instr → Nat
  | .assign key buckets => if clampTest buckets then 0 else (assign key buckets).iters.toNat + 1
  | _ => 0

/-- Two states that agree on all that can still matter: everything but the registers that R28 and R36 say are written
before they are read. -/
def State.SameVisible (s t : State) : Prop :=
  s.st = t.st ∧ s.script = t.script ∧ s.stalls = t.stalls ∧ s.record = t.record ∧
  (s.st = .iter → s.loopRegs = t.loopRegs ∧ s.bk = t.bk) ∧
  (s.st = .resp → s.rd = t.rd ∧ s.rs = t.rs ∧ s.ri = t.ri)

/-- The loop registers after `t` bodies with no exit test (R113). -/
def jumpRegs (key : Word64) : Nat → LoopRegs
  | 0 => LoopRegs.init key
  | t + 1 => (jumpRegs key t).body

/-- `v` is in `J(key)` (R113): an index that the bodies produce while the numerator fits the divider's domain, that is up
to and including the first index that no bucket count exceeds. Indices after that one are no divider input of R109, and no
bucket count could tell them: DEDUCED, safe (log 17). -/
def jumpIndex (key : Word64) (v : Nat) : Prop :=
  ∃ t, (jumpRegs key t).j.toNat = v ∧ ∀ u < t, (jumpRegs key u).j.toNat < 2 ^ 31 - 1

end Sys2Proof.Machine
end

