-- ==== Sys2Proof/Certificates/Slice0/Obligations.lean ====
section
/-! DEFINITION. The statements for the provers. Each docstring names the rules of spec/ it comes from, or says that it is
the model's choice. -/

open Sys2Proof Sys2Proof.Machine

/-! ### Encoding (30_encoding.md) -/

/-- R70, R72, R73: decoding the word of any operation gives the operation back, for every operand. -/
def Obligations.DecodeUndoesEncode : Prop :=
  ∀ i : Instr, i.wellFormed = true → decode (encode i) = i

/-- R73: encoding what a word decodes to gives the word with exactly its ignored bits cleared; so decoding reads every bit
that R73 does not mark "ignored". -/
def Obligations.EncodeDecodeClearsIgnoredBits : Prop :=
  ∀ w : ReqWord, encode (decode w) = w &&& usedBits (opField w)

/-- R74: at every edge, the block does with a request exactly what it does with the same request with the ignored bits
zero; and no request word, whatever its ignored bits, makes the block fault. -/
def Obligations.IgnoredBitsHaveNoEffect : Prop :=
  ∀ (p : PortIn) (stall : Bool) (s : State),
    let w := p.word &&& usedBits p.reqOp
    blockEdge p stall s = blockEdge { p with reqOp := opField w, reqA := aField w, reqB := bField w } stall s ∧
    ∃ t, blockEdge p stall s = .next t

/-- R70, R72, R73: a word for each opcode decodes to its operation: the first seven are written out in 95_test_vectors.md,
the eighth is written out here from R70's table. The last clause is the model's reading, log 13 (DEDUCED): a number with
bit 99 set is no request word and is refused. -/
def Obligations.SpecWordsDecode : Prop :=
  decodeTableWord 104 0x000000000000000010000000A = some (.assign 1#64 10#32) ∧
  decodeTableWord 104 0x127BB2EE687B0B0FD00000000 = some (.lcg 0x27BB2EE687B0B0FD#64) ∧
  decodeTableWord 104 0x20123456789ABCDEF00000000 = some (.ushr33 0x0123456789ABCDEF#64) ∧
  decodeTableWord 104 0x3FFFFFFFFFFFFFFFFFFFFFFFF = some (.recip 0x7FFFFFFF#31) ∧
  decodeTableWord 104 0x4FFFFFFFF00000001FFFFFFFF = some (.floordiv 1#32 0x7FFFFFFF#31) ∧
  decodeTableWord 104 0x5000000000000123400005678 = some .reserved101 ∧
  decodeTableWord 104 0x6FFFFFFFFFFFFFFFFFFFFFFFF = some .reserved110 ∧
  decodeTableWord 104 0x7000000000000000000000000 = some .reserved111 ∧
  decodeTableWord 104 0x8000000000000000000000000 = none

/-- R71, R76: a response whose status is not code 11 is read back from its 98-bit word, and a word with status 11 is
refused. -/
def Obligations.ResponseWordReadsBack : Prop :=
  ∀ r : Response,
    (r.status ≠ 0b11#2 → decodeRsp r.word = .ok r) ∧
    (r.status = 0b11#2 → decodeRsp r.word = .error .statusNeverProduced)

/-- R78's table, row by row, its ranges as numbers: with its operands in range a line stands for the one operation of its
row, with the operands as bit patterns and every ignored bit 0; with an operand out of range it is an error. R78 states no
range for the `x` of LCG and USHR33 nor for the operands of REQ: that every integer is taken for `x` and for the `a` and `b`
of REQ, and an `op` of REQ outside its three bits is an error, is the model's choice, log 10. -/
def Obligations.AssemblerLineGivesItsRequest : Prop :=
  (∀ key buckets : Int,
    if -2 ^ 63 ≤ key ∧ key < 2 ^ 64 ∧ -2 ^ 31 ≤ buckets ∧ buckets < 2 ^ 32 then
      ∃ w, assembleLine (.assign key buckets) = .ok w ∧ encode (decode w) = w ∧
        decode w = .assign (BitVec.ofInt 64 key) (BitVec.ofInt 32 buckets)
    else assembleLine (.assign key buckets) = .error .operandOutOfRange) ∧
  (∀ x : Int, ∃ w, assembleLine (.lcg x) = .ok w ∧ encode (decode w) = w ∧ decode w = .lcg (BitVec.ofInt 64 x)) ∧
  (∀ x : Int, ∃ w, assembleLine (.ushr33 x) = .ok w ∧ encode (decode w) = w ∧ decode w = .ushr33 (BitVec.ofInt 64 x)) ∧
  (∀ v : Int,
    if 0 ≤ v ∧ v < 2 ^ 31 then
      ∃ w, assembleLine (.recip v) = .ok w ∧ encode (decode w) = w ∧
        decode w = .recip (BitVec.ofInt 31 v) ∧ (BitVec.ofInt 31 v).toNat = v.toNat
    else assembleLine (.recip v) = .error .operandOutOfRange) ∧
  (∀ n v : Int,
    if 0 ≤ n ∧ n < 2 ^ 32 ∧ 0 ≤ v ∧ v < 2 ^ 31 then
      ∃ w, assembleLine (.floordiv n v) = .ok w ∧ encode (decode w) = w ∧
        decode w = .floordiv (BitVec.ofInt 32 n) (BitVec.ofInt 31 v) ∧
        (BitVec.ofInt 32 n).toNat = n.toNat ∧ (BitVec.ofInt 31 v).toNat = v.toNat
    else assembleLine (.floordiv n v) = .error .operandOutOfRange) ∧
  (∀ op a b : Int,
    if 0 ≤ op ∧ op < 8 then
      ∃ w, assembleLine (.req op a b) = .ok w ∧ (opField w).toNat = op.toNat ∧
        aField w = BitVec.ofInt 64 a ∧ bField w = BitVec.ofInt 32 b
    else assembleLine (.req op a b) = .error .operandOutOfRange)

/-! ### The operations at their accepting edge (10_state.md R32) -/

/-- R130, R131: `LCG x` is accepted with any `req_b`, and writes `x * LCG_MUL + 1` modulo 2^64, `OK` and 0 to the response
registers and goes to RESP, and changes nothing else. -/
def Obligations.LcgAnswersTheStep : Prop :=
  ∀ (x : Word64) (b : Word32) (s : State),
    decode (reqWord 0b001#3 x b) = .lcg x ∧
    exec (.lcg x) s = .next { s with
      rd := BitVec.ofNat 64 ((2862933555777941757 * x.toNat + 1) % 2 ^ 64), rs := 0b00#2, ri := 0#32, st := .resp }

/-- R140, R141: `USHR33 x` is accepted with any `req_b`, and writes the integer quotient of `x` by 2^33 (a logical shift),
`OK` and 0, goes to RESP, and changes nothing else. -/
def Obligations.Ushr33AnswersTheShift : Prop :=
  ∀ (x : Word64) (b : Word32) (s : State),
    decode (reqWord 0b010#3 x b) = .ushr33 x ∧
    exec (.ushr33 x) s = .next { s with
      rd := BitVec.ofNat 64 (x.toNat / 2 ^ 33), rs := 0b00#2, ri := 0#32, st := .resp }

/-- R151: `RECIP s` takes `s = req_a[30:0]` whatever the ignored bits, writes `RecipBits(s)`, `OK` and 0, goes to RESP, and
changes nothing else; with R151's corner cases and example. -/
def Obligations.RecipAnswersTheVariate : Prop :=
  (∀ (a : Word64) (b : Word32) (s : State),
    decode (reqWord 0b011#3 a b) = .recip (a.extractLsb' 0 31) ∧
    exec (.recip (a.extractLsb' 0 31)) s = .next { s with
      rd := recipBits (a.extractLsb' 0 31), rs := 0b00#2, ri := 0#32, st := .resp }) ∧
  recipBits 0#31 = 0x3E00000000000000#64 ∧
  recipBits 2147483647#31 = 0x3FF0000000000000#64 ∧
  recipBits 1073741823#31 = 0x3FE0000000000000#64 ∧
  recipBits 1073741824#31 = 0x3FE0000000400000#64 ∧
  recipBits 1644167167#31 = 0x3FE8800000000000#64

/-- R160, R163: `FLOORDIV n, s` takes `n = req_a[31:0]` and `s = req_b[30:0]` whatever the ignored bits, writes the 64-bit
pattern of `trunc(fl(n / Recip(s)))`, over the rationals, `OK` and 0, goes to RESP, and changes nothing else. -/
def Obligations.FloordivAnswersTheRoundedQuotient : Prop :=
  ∀ (a : Word64) (b : Word32) (s : State),
    let n := a.extractLsb' 0 32
    let v := b.extractLsb' 0 31
    decode (reqWord 0b100#3 a b) = .floordiv n v ∧
    exec (.floordiv n v) s = .next { s with
      rd := BitVec.ofNat 64 (floorDivReal n.toNat v.toNat), rs := 0b00#2, ri := 0#32, st := .resp }

/-- R75, R182: a request with a reserved opcode is accepted, whatever its operands, and answered with data 0, `ILLEGAL_OP`
and 0; no other register is written. -/
def Obligations.ReservedOpcodesAnswerIllegalOp : Prop :=
  (∀ (a : Word64) (b : Word32), decode (reqWord 0b101#3 a b) = .reserved101 ∧
    decode (reqWord 0b110#3 a b) = .reserved110 ∧ decode (reqWord 0b111#3 a b) = .reserved111) ∧
  ∀ (i : Instr) (s : State), (i = .reserved101 ∨ i = .reserved110 ∨ i = .reserved111) →
    exec i s = .next { s with rd := 0#64, rs := 0b10#2, ri := 0#32, st := .resp }

/-- R102: `ASSIGN` with `buckets <= 0` answers 0 with `CLAMPED` and 0 iterations at its accepting edge, and writes no other
register; at the transaction level too. -/
def Obligations.AssignClampsNonPositiveBuckets : Prop :=
  ∀ (key : Word64) (buckets : Word32) (s : State), buckets.toInt ≤ 0 →
    exec (.assign key buckets) s = .next { s with rd := 0#64, rs := 0b01#2, ri := 0#32, st := .resp } ∧
    assign key buckets = { data := 0#64, status := 0b01#2, iters := 0#32 }

/-- R103, R32: `ASSIGN` with `buckets >= 1` starts the loop: `k = key`, `b = -1`, `j = 0`, `bk = buckets`, `it = 0`, in
ITER; it leaves the response registers. -/
def Obligations.AssignStartsTheLoop : Prop :=
  ∀ (key : Word64) (buckets : Word32) (s : State), 1 ≤ buckets.toInt →
    exec (.assign key buckets) s = .next { s with
      k := key, b := 0xFFFFFFFFFFFFFFFF#64, j := 0#64, bk := buckets, it := 0#32, st := .iter }

/-- R180: no operation raises an exception; every one gives a next state, in every state, for every operand. -/
def Obligations.NoOperationStops : Prop :=
  ∀ (i : Instr) (s : State), ∃ t, exec i s = .next t ∧ (t.st = .resp ∨ t.st = .iter)

/-- R183: the one status of a response, decided in R183's order from the request alone, at the transaction level; and the
accepting edge writes that status wherever it answers at once. -/
def Obligations.OneStatusPerResponse : Prop :=
  ∀ (op : OpBits) (a : Word64) (b : Word32),
    let i := decode (reqWord op a b)
    let status : StatusBits :=
      if op = 0b101#3 ∨ op = 0b110#3 ∨ op = 0b111#3 then 0b10#2
      else if op = 0b000#3 ∧ b.toInt ≤ 0 then 0b01#2
      else 0b00#2
    (respond i).status = status ∧
    ∀ s t, exec i s = .next t → t.st = .resp → t.rs = status

/-! ### The step (10_state.md R30-R37, 70_reset_and_hazards.md) -/

/-- R30, R32: in IDLE, at an edge without reset or stall, with a request on the ports, the step is the meaning of the
decoded request, and beside it the host goes on: its script moves on, one STALL draw is used, and what it read is
recorded (these three fields are the model's own, log 3, 5 and 14). -/
def Obligations.StepRunsTheDecodedRequest : Prop :=
  ∀ (s : State) (i : Instr) (seen : Option Response),
    s.st = .idle → s.ports.rst = false → s.stallNow = false → s.ports.reqValid = true →
    decode s.ports.word = i → i.wellFormed = true → s.sampled = .ok seen →
    step s = match exec i s with
      | .next t => .next { t with
          script := scriptAfter (.accept s.ports.word) s.script
          stalls := s.stalls.tail
          record := s.record ++ seen.toList }
      | .fault f => .fault f
      | .refused r => .refused r

/-- R29, R203: after reset `st` is IDLE, so `req_ready = 1` and `rsp_valid = 0`, and the first request is accepted at the
first edge: a word offered to the reset state runs as the decoder reads it. The offer is withFetchWord's (log 4), and the
reset state's other registers hold the values of log 1 (DESIGN CHOICE). -/
def Obligations.FirstRequestAfterReset : Prop :=
  State.reset.st = .idle ∧ State.reset.reqReady = true ∧ State.reset.rspValid = false ∧
  ∀ w : ReqWord, step (State.reset.withFetchWord 104 w.toNat) = exec (decode w) State.reset

/-- R31: in IDLE with no request and no reset nothing changes in the block, whatever the other inputs. -/
def Obligations.IdleWithoutRequestChangesNothing : Prop :=
  ∀ (p : PortIn) (stall : Bool) (s : State), s.st = .idle → p.rst = false → p.reqValid = false →
    blockEdge p stall s = .next s

/-- R33: one edge in ITER. Below the bucket count it runs one body: `b := j`, `k := LcgStep(k)`, `j := trunc(fl((j + 1) /
Recip(Ushr33(k))))` over the rationals (R160), with the new `k`, and `it := it + 1`. Otherwise it leaves the loop with
`zext_64(b[31:0])`, `OK` and `it`. Nothing else changes, and the request inputs play no part. The premise
`0 <= j` is R109's bound. -/
def Obligations.IterEdgeRunsOneBodyOrLeaves : Prop :=
  ∀ (p : PortIn) (s : State), p.rst = false → s.st = .iter → 0 ≤ s.j.toInt →
    let k1 : Word64 := BitVec.ofNat 64 ((2862933555777941757 * s.k.toNat + 1) % 2 ^ 64)
    (s.j.toInt < s.bk.toInt →
      blockEdge p false s = .next { s with
        b := s.j, k := k1, j := BitVec.ofNat 64 (floorDivReal (s.j.toNat + 1) (k1.toNat / 2 ^ 33)), it := s.it + 1#32 }) ∧
    (s.bk.toInt ≤ s.j.toInt →
      blockEdge p false s = .next { s with
        rd := BitVec.ofNat 64 (s.b.toNat % 2 ^ 32), rs := 0b00#2, ri := s.it, st := .resp })

/-- R34: in RESP, `rsp_ready = 1` delivers and goes to IDLE, `rsp_ready = 0` changes nothing, and the response registers are
stable either way; the request inputs play no part. -/
def Obligations.RespHoldsUntilTaken : Prop :=
  ∀ (p : PortIn) (s : State), p.rst = false → s.st = .resp →
    blockEdge p false s = if p.rspReady then .next { s with st := .idle } else .next s

/-- R200, R202: at a reset edge no request is accepted and no response delivered, and `st` becomes IDLE whatever the state
and the other inputs, with `req_ready = 1` and `rsp_valid = 0` afterwards. That it does so even when the draw is a stall is
the model's reading, log 6 (DEDUCED: reset wins over R211's draw). -/
def Obligations.ResetEdgeGoesToIdle : Prop :=
  (∀ s : State, s.ports.rst = true → s.accepted = none ∧ s.delivered = none) ∧
  ∀ (p : PortIn) (stall : Bool) (s : State), p.rst = true →
    ∃ t, blockEdge p stall s = .next t ∧ t.st = .idle ∧ t.reqReady = true ∧ t.rspValid = false

/-- The model's choice, log 2 (DEDUCED from R200's "No other register is written" against R29's "unspecified"): a reset edge
keeps every register but `st`. -/
def Obligations.ResetEdgeKeepsOtherRegisters : Prop :=
  ∀ (p : PortIn) (stall : Bool) (s : State), p.rst = true → blockEdge p stall s = .next { s with st := .idle }

/-- R211: at a stall edge without reset nothing changes in the block, in any state and for any inputs, and nothing is
accepted or delivered. That reset wins over the draw is the model's reading (log 6, DEDUCED), and so is that a stall edge
transfers nothing even with valid and ready both 1 (log 7, DEDUCED). -/
def Obligations.StallEdgeChangesNothing : Prop :=
  (∀ (p : PortIn) (s : State), p.rst = false → blockEdge p true s = .next s) ∧
  ∀ s : State, s.stallNow = true → s.accepted = none ∧ s.delivered = none

/-- R35: `rd`, `rs` and `ri` change only together with `st <- RESP`, at an edge that accepts a request or in ITER; and not at
a stall edge (R211). That a reset edge keeps them is the model's reading of R200 against R29, log 2 (DEDUCED). -/
def Obligations.ResponseRegistersWrittenOnlyIntoResp : Prop :=
  ∀ (p : PortIn) (stall : Bool) (s t : State), blockEdge p stall s = .next t →
    (t.rd ≠ s.rd ∨ t.rs ≠ s.rs ∨ t.ri ≠ s.ri) →
    t.st = .resp ∧ p.rst = false ∧ stall = false ∧ (s.st = .iter ∨ (s.st = .idle ∧ p.reqValid = true))

/-- R22's "written by" column, R32, R33: `bk` is written only by the acceptance of an ASSIGN with `buckets >= 1`, and `k`,
`b`, `j`, `it` only by that or in ITER; none of them at a reset edge (log 2) or a stall edge (R211). -/
def Obligations.LoopRegistersWrittenOnlyByAssign : Prop :=
  ∀ (p : PortIn) (stall : Bool) (s t : State), blockEdge p stall s = .next t →
    ((t.k ≠ s.k ∨ t.b ≠ s.b ∨ t.j ≠ s.j ∨ t.it ≠ s.it) →
      p.rst = false ∧ stall = false ∧
      (s.st = .iter ∨ (s.st = .idle ∧ p.reqValid = true ∧ p.reqOp = 0b000#3 ∧ 1 ≤ p.reqB.toInt))) ∧
    (t.bk ≠ s.bk →
      p.rst = false ∧ stall = false ∧ s.st = .idle ∧ p.reqValid = true ∧ p.reqOp = 0b000#3 ∧ 1 ≤ p.reqB.toInt)

/-- R61: outside IDLE a change of `req_valid`, `req_op`, `req_a` or `req_b` has no effect. -/
def Obligations.RequestInputsIgnoredOutsideIdle : Prop :=
  ∀ (p q : PortIn) (stall : Bool) (s : State), s.st ≠ .idle → p.rst = q.rst → p.rspReady = q.rspReady →
    blockEdge p stall s = blockEdge q stall s

/-- R180, R205: the machine never refuses, and it faults exactly when the host reads the response ports while
`rsp_valid = 0`. That the read is judged on the state before the coming edge, and that it is the step that faults, is the
model's reading, log 8 (DEDUCED). -/
def Obligations.OnlyAnInvalidReadFaults : Prop :=
  ∀ s : State,
    (s.samples = true ∧ s.st ≠ .resp → step s = .fault .rspReadWhileInvalid) ∧
    (¬ (s.samples = true ∧ s.st ≠ .resp) → ∃ t, step s = .next t)

/-- R23, R56, R205: a host read while `rsp_valid = 1` gives `rd`, `rs` and `ri`. That it gives those of before the edge is
the model's reading, log 8 (DEDUCED); that the record keeps it, and that a step without a read keeps the record, is the
model's own, log 14 (DESIGN CHOICE). -/
def Obligations.ReadsReturnTheResponseRegisters : Prop :=
  ∀ s t : State, step s = .next t →
    t.record = if s.samples then s.record ++ [{ data := s.rd, status := s.rs, iters := s.ri }] else s.record

/-- R78: `TICK n` lets `n` edges pass; in IDLE the block stays as it is (R31). That the script then goes on with the next
action and that `n` draws are used is the model's own, log 3 and log 5 (DESIGN CHOICE). For ITER and RESP see
TickCountsDownInAnyState. -/
def Obligations.TickLetsEdgesPass : Prop :=
  ∀ (n : Nat) (s : State) (rest : List HostAction), 1 ≤ n → s.st = .idle → s.script = .tick n :: rest →
    Host.Core.run Sys2Proof.core n s = .next { s with script := rest, stalls := s.stalls.drop n }

/-- R78: a request line holds its word on the ports until an edge accepts it, and then gives way; `WAIT` holds `rsp_ready`
until a response is delivered, and then gives way. The script is the model's own field, log 3 (DESIGN CHOICE). -/
def Obligations.RequestAndWaitHoldUntilDone : Prop :=
  ∀ (s t : State) (w : ReqWord) (rest : List HostAction), step s = .next t →
    (s.script = .request w :: rest → s.ports.reqValid = true ∧ s.ports.word = w ∧
      (s.accepted = some (decode w) → t.script = rest) ∧ (s.accepted = none → t.script = s.script)) ∧
    (s.script = .wait :: rest → s.ports.rspReady = true ∧
      (s.delivered ≠ none → t.script = rest) ∧ (s.delivered = none → t.script = s.script))

/-! ### The sub-units -/

/-- R132: `LcgStep` is a bijection, with the inverse `(y - 1) * 0xDFE66807999CEC55`. -/
def Obligations.LcgStepIsABijection : Prop :=
  ∀ x : Word64, 0xDFE66807999CEC55#64 * (lcgStep x - 1#64) = x ∧ lcgStep (0xDFE66807999CEC55#64 * (x - 1#64)) = x

/-- R142: `Ushr33(x)` is at most 2^31 - 1, its bits 63..31 are 0, and `Ushr33(x) + 1` lies in `[1, 2^31]`. -/
def Obligations.Ushr33Range : Prop :=
  ∀ x : Word64, (ushr33 x).toNat ≤ 2 ^ 31 - 1 ∧ (∀ n, 31 ≤ n → (ushr33 x).getLsbD n = false) ∧
    1 ≤ (ushr33 x).toNat + 1 ∧ (ushr33 x).toNat + 1 ≤ 2 ^ 31

/-- R150: the fields of `RecipBits(s)`, for `m = s + 1` and `p = floor(log2 m)`. -/
def Obligations.RecipBitsFields : Prop :=
  ∀ (v : Word31) (p : Nat), 2 ^ p ≤ v.toNat + 1 → v.toNat + 1 < 2 ^ (p + 1) →
    p ≤ 31 ∧ (recipBits v).getLsbD 63 = false ∧ ((recipBits v).extractLsb' 52 11).toNat = p + 992 ∧
    ((recipBits v).extractLsb' 0 52).toNat = (v.toNat + 1 - 2 ^ p) * 2 ^ (52 - p)

/-- R152, R153: `RecipBits(s)` is a normal binary64 word whose value is exactly `(s + 1) * 2^-31`; the value lies in
`[2^-31, 1]` and grows strictly with `s`. -/
def Obligations.RecipIsExact : Prop :=
  ∀ v : Word31,
    binary64Value (recipBits v) = some (((v.toNat : ℚ) + 1) / 2 ^ 31) ∧
    (1 : ℚ) / 2 ^ 31 ≤ recip v.toNat ∧ recip v.toNat ≤ 1 ∧
    ∀ v' : Word31, v.toNat < v'.toNat → recip v.toNat < recip v'.toNat

/-- R10: for a positive rational, `fl` gives a multiple of the unit in the last place with a significand in
`[2^52, 2^53]`, none nearer, and an even one in a tie. -/
def Obligations.FlRoundsToNearestEven : Prop :=
  ∀ q : ℚ, 0 < q → ∃ m : Int,
    fl q = m * ulp q ∧ 2 ^ 52 ≤ m ∧ m ≤ 2 ^ 53 ∧
    (∀ m' : Int, |m * ulp q - q| ≤ |m' * ulp q - q|) ∧
    (2 * |m * ulp q - q| = ulp q → m % 2 = 0)

/-- R160, R161, R162: the divider's integer algorithm equals `trunc(fl(n / Recip(s)))` over the rationals (0 for `n = 0`),
for every 32-bit `n` and 31-bit `s`. That the model may compute by the algorithm rests on this (log 12). -/
def Obligations.FloorDivIsTheRoundedQuotient : Prop :=
  ∀ n s : Nat, n ≤ 2 ^ 32 - 1 → s ≤ 2 ^ 31 - 1 → floorDivNat n s = floorDivReal n s

/-- R162: for `n >= 1` the result lies between `n` and `n * 2^31` and below 2^63, and the rounded quotient in `[1, 2^63)`;
for `n = 0` it is 0; in the loop's domain it is at most `(2^31 - 1) * 2^31`; the maximum is at `n = 2^32 - 1`, `s = 0`. -/
def Obligations.FloorDivRange : Prop :=
  (∀ n s : Nat, 1 ≤ n → n ≤ 2 ^ 32 - 1 → s ≤ 2 ^ 31 - 1 →
    n ≤ floorDivNat n s ∧ floorDivNat n s ≤ 2 ^ 31 * n ∧ floorDivNat n s < 2 ^ 63 ∧
    1 ≤ fl ((n : ℚ) / recip s) ∧ fl ((n : ℚ) / recip s) < 2 ^ 63 ∧
    (n ≤ 2 ^ 31 - 1 → floorDivNat n s ≤ (2 ^ 31 - 1) * 2 ^ 31)) ∧
  (∀ s : Nat, floorDivNat 0 s = 0) ∧
  floorDivNat (2 ^ 32 - 1) 0 = 0x7FFFFFFF80000000

/-- R164: `FloorDiv(n, s)` is non-decreasing in `n` and non-increasing in `s`. -/
def Obligations.FloorDivMonotone : Prop :=
  ∀ n n' s s' : Nat, n ≤ n' → n' ≤ 2 ^ 32 - 1 → s' ≤ s → s ≤ 2 ^ 31 - 1 → floorDivNat n s ≤ floorDivNat n' s'

/-- R165, R166: the values of the `FloorDiv` columns of their two tables. -/
def Obligations.FloorDivTableValues : Prop :=
  floorDivNat 2147483646 2147483646 = 2147483647 ∧ floorDivNat 1431655763 2147483644 = 1431655765 ∧
  floorDivNat 49 1644167167 = 64 ∧ floorDivNat 49 48 = 2147483648

/-! ### ASSIGN, whole (40_assign.md) -/

/-- R108, R109: for `buckets >= 1` the loop ends after `I` bodies, `1 <= I <= buckets`, and `assign` gives the last
candidate, which is a bucket, and `I`. In every body that runs the index is in range, the numerator fits the divider, and
the index strictly increases and stays below 2^62. -/
def Obligations.AssignLoopEndsInRange : Prop :=
  ∀ (key : Word64) (bk : Word32), 1 ≤ bk.toInt →
    ∃ I : Nat, 1 ≤ I ∧ I ≤ bk.toNat ∧
      (∀ t, t < I →
        let l := jumpRegs key t
        l.continues bk = true ∧ 0 ≤ l.j.toInt ∧ l.j.toInt < bk.toInt ∧ (t : Int) ≤ l.j.toInt ∧
        l.numerator.toNat = l.j.toNat + 1 ∧ l.body.b = l.j ∧
        l.j.toInt + 1 ≤ l.body.j.toInt ∧ l.body.j.toInt ≤ (2 ^ 31 - 1) * 2 ^ 31) ∧
      (jumpRegs key I).continues bk = false ∧
      assign key bk = { data := (jumpRegs key I).b, status := 0b00#2, iters := BitVec.ofNat 32 I } ∧
      0 ≤ (jumpRegs key I).b.toInt ∧ (jumpRegs key I).b.toInt < bk.toInt

/-- R110: `0 <= assign(key, buckets) < buckets` for every key and every `buckets >= 1`; the upper half of the data is 0. -/
def Obligations.AssignResultIsABucket : Prop :=
  ∀ (key : Word64) (bk : Word32), 1 ≤ bk.toInt →
    0 ≤ ((assign key bk).data.setWidth 32).toInt ∧ ((assign key bk).data.setWidth 32).toInt < bk.toInt ∧
    (assign key bk).data.toNat < 2 ^ 32

/-- R111: one bucket gives 0 after one iteration, for every key. -/
def Obligations.AssignOneBucketIsZero : Prop :=
  ∀ key : Word64, assign key 1#32 = { data := 0#64, status := 0b00#2, iters := 1#32 }

/-- R113: `assign(key, N)` is the largest element of `J(key)` below `N`, and `assign(key, N + 1)` is `N` if `N` is in
`J(key)` and `assign(key, N)` otherwise. That `J(key)` stops at the divider's domain is log 17. -/
def Obligations.GrowingMovesKeysOnlyToTheNewBucket : Prop :=
  ∀ (key : Word64) (N : Nat), 1 ≤ N → N ≤ 2 ^ 31 - 1 →
    let v := (assign key (BitVec.ofNat 32 N)).data.toNat
    (jumpIndex key v ∧ v < N ∧ ∀ u, jumpIndex key u → u < N → u ≤ v) ∧
    (N + 1 ≤ 2 ^ 31 - 1 →
      (jumpIndex key N → (assign key (BitVec.ofNat 32 (N + 1))).data.toNat = N) ∧
      (¬ jumpIndex key N → (assign key (BitVec.ofNat 32 (N + 1))).data.toNat = v))

/-- R107, R206, R211: the two levels agree. A clamped ASSIGN is in RESP with the response of `assign` right after its
accepting edge. After the edge that accepts an ASSIGN with `buckets >= 1`, whatever the inputs without reset and whatever
the stall edges, at most `I` live edges leave the block in ITER, and the live edge `I + 1` brings it to RESP with exactly
the response of `assign`, `I` being that response's `iters`. -/
def Obligations.AssignLevelsAgree : Prop :=
  ∀ (s : State) (key : Word64) (bk : Word32),
    let r := assign key bk
    ∃ t, exec (.assign key bk) s = .next t ∧
      (bk.toInt ≤ 0 → t.st = .resp ∧ t.rd = r.data ∧ t.rs = r.status ∧ t.ri = r.iters) ∧
      (1 ≤ bk.toInt → ∀ es : List EdgeIn, (∀ e ∈ es, e.ports.rst = false) →
        (liveEdges es ≤ r.iters.toNat → ∃ u, blockRun es t = .next u ∧ u.st = .iter) ∧
        (liveEdges es = r.iters.toNat + 1 → ∃ u, blockRun es t = .next u ∧
          u.st = .resp ∧ u.rd = r.data ∧ u.rs = r.status ∧ u.ri = r.iters))

/-! ### The whole machine -/

/-- R29, R76, R109: the invariant holds in the reset state. -/
def Obligations.ResetHasInv : Prop := State.reset.Inv

/-- R22, R76, R108, R109: every step keeps the invariant: in ITER the loop registers stay in R109's bounds, in RESP the
status is one R76 names and the iteration count is one some bucket count allows. -/
def Obligations.StepKeepsInv : Prop := ∀ s t : State, s.Inv → step s = .next t → t.Inv

/-- R13, R107, R210: from IDLE in the reference timing, a request line followed by WAIT takes the edges of R210's table
(two, or `I + 3` for an ASSIGN that iterates), records exactly the response of the transaction level, and leaves the block
in IDLE. The script and the record are the model's own fields, log 3 and log 14 (DESIGN CHOICE); the empty list of draws is
the reference timing, log 5. -/
def Obligations.RequestThenWaitRecordsTheResponse : Prop :=
  ∀ (s : State) (w : ReqWord) (rest : List HostAction), s.st = .idle → s.stalls = [] →
    s.script = .request w :: .wait :: rest →
    ∃ t, Host.Core.run Sys2Proof.core (edgesToResp (decode w) + 2) s = .next t ∧
      t.st = .idle ∧ t.script = rest ∧ t.record = s.record ++ [respond (decode w)]

/-- R200, R206, R207: a reset in the middle of anything loses it, and the request sent again gets the response it would have
had. The script, the draws and the record are the model's own fields, log 3, log 5 and log 14 (DESIGN CHOICE). -/
def Obligations.ReissueAfterResetGetsTheResponse : Prop :=
  ∀ (s : State) (w : ReqWord) (rest : List HostAction), s.stalls = [] →
    s.script = .reset :: .request w :: .wait :: rest →
    ∃ t, Host.Core.run Sys2Proof.core (edgesToResp (decode w) + 3) s = .next t ∧
      t.st = .idle ∧ t.script = rest ∧ t.record = s.record ++ [respond (decode w)]

/-- R57, R28, R112, R211: without a reset, for every host and every stall draws, the responses delivered are the
transaction-level responses to the requests accepted, in order, at most the last one still pending. That a stall edge
accepts and delivers nothing is the model's reading, log 7 (DEDUCED); the host and the draws are the model's fields, log 3
and log 5. -/
def Obligations.ResponsesAnswerRequestsInOrder : Prop :=
  ∀ (n : Nat) (s : State), s.st = .idle → noResetIn n s = true →
    ∃ pending : List Response, (acceptedIn n s).map respond = deliveredIn n s ++ pending ∧ pending.length ≤ 1

/-- R28, R36: what a step does depends on no register that R36 says holds no value: two states that agree on the rest step
to two states that agree on the rest, or fault alike, and accept and deliver the same. -/
def Obligations.StepReadsNoStaleRegister : Prop :=
  ∀ s t : State, s.SameVisible t →
    s.accepted = t.accepted ∧ s.delivered = t.delivered ∧
    ((∃ u v, step s = .next u ∧ step t = .next v ∧ u.SameVisible v) ∨
     (∃ f, step s = .fault f ∧ step t = .fault f))

/-- R28, R112: left-over register values never show: over any number of edges two such states accept the same requests and
deliver the same responses. -/
def Obligations.StaleRegistersNeverShow : Prop :=
  ∀ (n : Nat) (s t : State), s.SameVisible t → acceptedIn n s = acceptedIn n t ∧ deliveredIn n s = deliveredIn n t

/-- R78: in every state, IDLE, ITER or RESP, a step with `TICK n` ahead is one edge of the block with every input low and
counts the script down by one; and so `TICK n` is `n` such edges (program P3's `TICK 5` is five loop bodies). That the
script counts, that each edge uses one draw, and that the inputs R78 does not name are low is the model's own, log 3, log 5
and log 11 (DESIGN CHOICE). -/
def Obligations.TickCountsDownInAnyState : Prop :=
  ∀ (n : Nat) (s : State) (rest : List HostAction), s.script = .tick (n + 1) :: rest →
    (∃ t, blockEdge PortIn.quiet s.stallNow s = .next t ∧
      step s = .next { t with
        script := if n = 0 then rest else .tick n :: rest
        stalls := s.stalls.tail }) ∧
    ∃ t, blockRun ((List.range (n + 1)).map (fun i => ⟨PortIn.quiet, s.stalls.getD i false⟩)) s = .next t ∧
      Host.Core.run Sys2Proof.core (n + 1) s = .next { t with script := rest, stalls := s.stalls.drop (n + 1) }
end

