-- ==== Sys2Proof/Laws/Assembler.lean ====
section
/-! SUPPORT. What the assembler of 30_encoding.md R78 answers, and what the reading of a line drops. -/

namespace Sys2Proof

@[simp] theorem inRange_iff (lo hi x : Int) : inRange lo hi x = true ↔ lo ≤ x ∧ x < hi := by simp [inRange]

end Sys2Proof

namespace Sys2Proof.Machine

/-- A line with its operands in range assembles to the word of its row. -/
theorem assembleLine_of_wellFormed (line : AsmLine) (h : line.wellFormed = true) : assembleLine line = .ok (asmWord line) := by
  simp [assembleLine, h]

/-- A line with an operand out of range is an error. -/
theorem assembleLine_of_not_wellFormed (line : AsmLine) (h : ¬ line.wellFormed = true) :
    assembleLine line = .error .operandOutOfRange := by
  simp [assembleLine, h]

@[simp] theorem dropComment_nil : dropComment [] = [] := rfl

@[simp] theorem dropComment_comment (rest : List Char) : dropComment ('-' :: '-' :: rest) = [] := rfl

/-- A character that starts no comment stays. -/
theorem dropComment_of_ne (c : Char) (rest : List Char) (h : c ≠ '-') :
    dropComment (c :: rest) = c :: dropComment rest := by
  rw [dropComment]
  rintro _ rfl
  exact absurd rfl h

end Sys2Proof.Machine
end

