-- ==== Sys2Proof/Laws/Datapath.lean ====
section
/-! SUPPORT. What the sub-units compute, on natural numbers. -/

namespace Sys2Proof.Machine

theorem lcgMul_toNat : Config.lcgMul.toNat = 2862933555777941757 := by decide

theorem lcgInc_toNat : Config.lcgInc.toNat = 1 := by decide

/-- `LcgStep` on integers (R130). -/
theorem lcgStep_toNat (x : Word64) : (lcgStep x).toNat = (2862933555777941757 * x.toNat + 1) % 2 ^ 64 := by
  rw [lcgStep, BitVec.toNat_add, BitVec.toNat_mul, lcgMul_toNat, lcgInc_toNat, Nat.mod_add_mod]

/-- The shift is the quotient by 2^33 (R140). -/
theorem ushr33_toNat (x : Word64) : (ushr33 x).toNat = x.toNat / 2 ^ 33 := by
  simp [ushr33, Config.ushrAmt, Nat.shiftRight_eq_div_pow]

/-- The shifted state fits 31 bits (R142), so nothing is lost on the way to the divider. -/
theorem ushr33_setWidth_toNat (x : Word64) : ((ushr33 x).setWidth 31).toNat = x.toNat / 2 ^ 33 := by
  have := x.isLt
  rw [BitVec.toNat_setWidth, ushr33_toNat]
  omega

/-- Rounding keeps the significand or adds one. -/
theorem roundEven_cases (m rem H : Nat) :
    (roundEven m rem H = m ∧ 2 * rem ≤ H ∧ (2 * rem = H → m % 2 = 0)) ∨
    (roundEven m rem H = m + 1 ∧ H ≤ 2 * rem ∧ (2 * rem = H → m % 2 = 1)) := by
  unfold roundEven
  split <;> omega

theorem roundEven_ge (m rem H : Nat) : m ≤ roundEven m rem H := by
  rcases roundEven_cases m rem H with h | h <;> omega

/-- The scale, as the power R5 gives; kept folded elsewhere so that no proof unfolds the numeral. -/
theorem scale_eq : Config.scale = 2 ^ 31 := by decide

theorem truncFlQuot_zero (D : Nat) : truncFlQuot 0 D = 0 := by simp [truncFlQuot]

theorem floorDivNat_zero (s : Nat) : floorDivNat 0 s = 0 := by
  rw [floorDivNat, Nat.mul_zero, truncFlQuot_zero]

/-- The quotient at 2^52 and above (R161 with `E >= 0`). -/
theorem truncFlQuot_high (N D : Nat) (hN : N ≠ 0) (hp : 52 ≤ Nat.log2 (N / D)) :
    truncFlQuot N D =
      roundEven (N / (D * 2 ^ (Nat.log2 (N / D) - 52))) (N % (D * 2 ^ (Nat.log2 (N / D) - 52)))
        (D * 2 ^ (Nat.log2 (N / D) - 52)) * 2 ^ (Nat.log2 (N / D) - 52) := by
  simp [truncFlQuot, hN, hp]

/-- The quotient below 2^52 (R161 with `E < 0`). -/
theorem truncFlQuot_low (N D : Nat) (hN : N ≠ 0) (hp : Nat.log2 (N / D) < 52) :
    truncFlQuot N D =
      roundEven (N * 2 ^ (52 - Nat.log2 (N / D)) / D) (N * 2 ^ (52 - Nat.log2 (N / D)) % D) D /
        2 ^ (52 - Nat.log2 (N / D)) := by
  have : ¬ 52 ≤ Nat.log2 (N / D) := by omega
  simp [truncFlQuot, hN, this]

end Sys2Proof.Machine
end

