-- ==== Sys2Proof/Laws/Encoding.lean ====
section
/-! SUPPORT. The fields of a request word (30_encoding.md R70): packing and unpacking. -/

namespace Sys2Proof

@[simp] theorem opField_reqWord (op : OpBits) (a : Word64) (b : Word32) : opField (reqWord op a b) = op := by
  apply BitVec.eq_of_getLsbD_eq
  intro i hi
  simp only [opField, reqWord, BitVec.getLsbD_extractLsb', BitVec.getLsbD_append]
  have h1 : ¬ (96 + i < 32) := by omega
  have h2 : ¬ (96 + i - 32 < 64) := by omega
  have h3 : 96 + i - 32 - 64 = i := by omega
  simp [hi, h1, h2, h3]

@[simp] theorem aField_reqWord (op : OpBits) (a : Word64) (b : Word32) : aField (reqWord op a b) = a := by
  apply BitVec.eq_of_getLsbD_eq
  intro i hi
  simp only [aField, reqWord, BitVec.getLsbD_extractLsb', BitVec.getLsbD_append]
  have h1 : ¬ (32 + i < 32) := by omega
  have h3 : 32 + i - 32 = i := by omega
  simp [hi, h1, h3]

@[simp] theorem bField_reqWord (op : OpBits) (a : Word64) (b : Word32) : bField (reqWord op a b) = b := by
  apply BitVec.eq_of_getLsbD_eq
  intro i hi
  simp only [bField, reqWord, BitVec.getLsbD_extractLsb', BitVec.getLsbD_append]
  simp [hi]

/-- A word is its three fields. -/
theorem reqWord_fields (w : ReqWord) : reqWord (opField w) (aField w) (bField w) = w := by
  apply BitVec.eq_of_getLsbD_eq
  intro i hi
  simp only [opField, aField, bField, reqWord, BitVec.getLsbD_extractLsb', BitVec.getLsbD_append]
  by_cases h1 : i < 32
  · simp [h1]
  · by_cases h2 : i - 32 < 64
    · have h3 : 32 + (i - 32) = i := by omega
      simp [h1, h2, h3]
    · have h3 : 96 + (i - 32 - 64) = i := by omega
      have h4 : i - 32 - 64 < 3 := by omega
      simp [h1, h2, h3, h4]

/-- The bitwise "and" of two words goes field by field. -/
theorem reqWord_and (op op' : OpBits) (a a' : Word64) (b b' : Word32) :
    reqWord op a b &&& reqWord op' a' b' = reqWord (op &&& op') (a &&& a') (b &&& b') := by
  apply BitVec.eq_of_getLsbD_eq
  intro i hi
  simp only [reqWord, BitVec.getLsbD_and, BitVec.getLsbD_append]
  split
  · rfl
  · split <;> rfl

namespace Machine

@[simp] theorem PortIn.offer_word (w : ReqWord) : (PortIn.offer w).word = w := reqWord_fields w

end Machine

end Sys2Proof
end

