-- ==== Sys2Proof/Laws/State.lean ====
section
/-! SUPPORT. One lemma per field per update of the state, so that no later proof unfolds a record update. -/

namespace Sys2Proof.Machine

/-! ### `State.answer` -/

@[simp] theorem State.answer_st (s : State) (data : Word64) (status : Status) (iters : Word32) :
    (s.answer data status iters).st = .resp := rfl
@[simp] theorem State.answer_k (s : State) (data : Word64) (status : Status) (iters : Word32) :
    (s.answer data status iters).k = s.k := rfl
@[simp] theorem State.answer_b (s : State) (data : Word64) (status : Status) (iters : Word32) :
    (s.answer data status iters).b = s.b := rfl
@[simp] theorem State.answer_j (s : State) (data : Word64) (status : Status) (iters : Word32) :
    (s.answer data status iters).j = s.j := rfl
@[simp] theorem State.answer_bk (s : State) (data : Word64) (status : Status) (iters : Word32) :
    (s.answer data status iters).bk = s.bk := rfl
@[simp] theorem State.answer_it (s : State) (data : Word64) (status : Status) (iters : Word32) :
    (s.answer data status iters).it = s.it := rfl
@[simp] theorem State.answer_rd (s : State) (data : Word64) (status : Status) (iters : Word32) :
    (s.answer data status iters).rd = data := rfl
@[simp] theorem State.answer_rs (s : State) (data : Word64) (status : Status) (iters : Word32) :
    (s.answer data status iters).rs = status.code := rfl
@[simp] theorem State.answer_ri (s : State) (data : Word64) (status : Status) (iters : Word32) :
    (s.answer data status iters).ri = iters := rfl
@[simp] theorem State.answer_script (s : State) (data : Word64) (status : Status) (iters : Word32) :
    (s.answer data status iters).script = s.script := rfl
@[simp] theorem State.answer_stalls (s : State) (data : Word64) (status : Status) (iters : Word32) :
    (s.answer data status iters).stalls = s.stalls := rfl
@[simp] theorem State.answer_record (s : State) (data : Word64) (status : Status) (iters : Word32) :
    (s.answer data status iters).record = s.record := rfl

/-! ### `State.setLoopRegs` -/

@[simp] theorem State.setLoopRegs_st (s : State) (l : LoopRegs) :
    (s.setLoopRegs l).st = s.st := rfl
@[simp] theorem State.setLoopRegs_k (s : State) (l : LoopRegs) :
    (s.setLoopRegs l).k = l.k := rfl
@[simp] theorem State.setLoopRegs_b (s : State) (l : LoopRegs) :
    (s.setLoopRegs l).b = l.b := rfl
@[simp] theorem State.setLoopRegs_j (s : State) (l : LoopRegs) :
    (s.setLoopRegs l).j = l.j := rfl
@[simp] theorem State.setLoopRegs_bk (s : State) (l : LoopRegs) :
    (s.setLoopRegs l).bk = s.bk := rfl
@[simp] theorem State.setLoopRegs_it (s : State) (l : LoopRegs) :
    (s.setLoopRegs l).it = l.it := rfl
@[simp] theorem State.setLoopRegs_rd (s : State) (l : LoopRegs) :
    (s.setLoopRegs l).rd = s.rd := rfl
@[simp] theorem State.setLoopRegs_rs (s : State) (l : LoopRegs) :
    (s.setLoopRegs l).rs = s.rs := rfl
@[simp] theorem State.setLoopRegs_ri (s : State) (l : LoopRegs) :
    (s.setLoopRegs l).ri = s.ri := rfl
@[simp] theorem State.setLoopRegs_script (s : State) (l : LoopRegs) :
    (s.setLoopRegs l).script = s.script := rfl
@[simp] theorem State.setLoopRegs_stalls (s : State) (l : LoopRegs) :
    (s.setLoopRegs l).stalls = s.stalls := rfl
@[simp] theorem State.setLoopRegs_record (s : State) (l : LoopRegs) :
    (s.setLoopRegs l).record = s.record := rfl

/-! ### `State.startLoop` -/

@[simp] theorem State.startLoop_st (s : State) (key : Word64) (buckets : Word32) :
    (s.startLoop key buckets).st = .iter := rfl
@[simp] theorem State.startLoop_k (s : State) (key : Word64) (buckets : Word32) :
    (s.startLoop key buckets).k = key := rfl
@[simp] theorem State.startLoop_b (s : State) (key : Word64) (buckets : Word32) :
    (s.startLoop key buckets).b = -1#64 := rfl
@[simp] theorem State.startLoop_j (s : State) (key : Word64) (buckets : Word32) :
    (s.startLoop key buckets).j = 0#64 := rfl
@[simp] theorem State.startLoop_bk (s : State) (key : Word64) (buckets : Word32) :
    (s.startLoop key buckets).bk = buckets := rfl
@[simp] theorem State.startLoop_it (s : State) (key : Word64) (buckets : Word32) :
    (s.startLoop key buckets).it = 0#32 := rfl
@[simp] theorem State.startLoop_rd (s : State) (key : Word64) (buckets : Word32) :
    (s.startLoop key buckets).rd = s.rd := rfl
@[simp] theorem State.startLoop_rs (s : State) (key : Word64) (buckets : Word32) :
    (s.startLoop key buckets).rs = s.rs := rfl
@[simp] theorem State.startLoop_ri (s : State) (key : Word64) (buckets : Word32) :
    (s.startLoop key buckets).ri = s.ri := rfl
@[simp] theorem State.startLoop_script (s : State) (key : Word64) (buckets : Word32) :
    (s.startLoop key buckets).script = s.script := rfl
@[simp] theorem State.startLoop_stalls (s : State) (key : Word64) (buckets : Word32) :
    (s.startLoop key buckets).stalls = s.stalls := rfl
@[simp] theorem State.startLoop_record (s : State) (key : Word64) (buckets : Word32) :
    (s.startLoop key buckets).record = s.record := rfl

/-! ### `State.resetEdge` -/

@[simp] theorem State.resetEdge_st (s : State) :
    (s.resetEdge).st = .idle := rfl
@[simp] theorem State.resetEdge_k (s : State) :
    (s.resetEdge).k = s.k := rfl
@[simp] theorem State.resetEdge_b (s : State) :
    (s.resetEdge).b = s.b := rfl
@[simp] theorem State.resetEdge_j (s : State) :
    (s.resetEdge).j = s.j := rfl
@[simp] theorem State.resetEdge_bk (s : State) :
    (s.resetEdge).bk = s.bk := rfl
@[simp] theorem State.resetEdge_it (s : State) :
    (s.resetEdge).it = s.it := rfl
@[simp] theorem State.resetEdge_rd (s : State) :
    (s.resetEdge).rd = s.rd := rfl
@[simp] theorem State.resetEdge_rs (s : State) :
    (s.resetEdge).rs = s.rs := rfl
@[simp] theorem State.resetEdge_ri (s : State) :
    (s.resetEdge).ri = s.ri := rfl
@[simp] theorem State.resetEdge_script (s : State) :
    (s.resetEdge).script = s.script := rfl
@[simp] theorem State.resetEdge_stalls (s : State) :
    (s.resetEdge).stalls = s.stalls := rfl
@[simp] theorem State.resetEdge_record (s : State) :
    (s.resetEdge).record = s.record := rfl

/-! ### `State.deliverEdge` -/

@[simp] theorem State.deliverEdge_st (s : State) :
    (s.deliverEdge).st = .idle := rfl
@[simp] theorem State.deliverEdge_k (s : State) :
    (s.deliverEdge).k = s.k := rfl
@[simp] theorem State.deliverEdge_b (s : State) :
    (s.deliverEdge).b = s.b := rfl
@[simp] theorem State.deliverEdge_j (s : State) :
    (s.deliverEdge).j = s.j := rfl
@[simp] theorem State.deliverEdge_bk (s : State) :
    (s.deliverEdge).bk = s.bk := rfl
@[simp] theorem State.deliverEdge_it (s : State) :
    (s.deliverEdge).it = s.it := rfl
@[simp] theorem State.deliverEdge_rd (s : State) :
    (s.deliverEdge).rd = s.rd := rfl
@[simp] theorem State.deliverEdge_rs (s : State) :
    (s.deliverEdge).rs = s.rs := rfl
@[simp] theorem State.deliverEdge_ri (s : State) :
    (s.deliverEdge).ri = s.ri := rfl
@[simp] theorem State.deliverEdge_script (s : State) :
    (s.deliverEdge).script = s.script := rfl
@[simp] theorem State.deliverEdge_stalls (s : State) :
    (s.deliverEdge).stalls = s.stalls := rfl
@[simp] theorem State.deliverEdge_record (s : State) :
    (s.deliverEdge).record = s.record := rfl

/-! ### `State.hostAfter` -/

@[simp] theorem State.hostAfter_st (s : State) (seen : Option Response) (t : State) :
    (s.hostAfter seen t).st = t.st := rfl
@[simp] theorem State.hostAfter_k (s : State) (seen : Option Response) (t : State) :
    (s.hostAfter seen t).k = t.k := rfl
@[simp] theorem State.hostAfter_b (s : State) (seen : Option Response) (t : State) :
    (s.hostAfter seen t).b = t.b := rfl
@[simp] theorem State.hostAfter_j (s : State) (seen : Option Response) (t : State) :
    (s.hostAfter seen t).j = t.j := rfl
@[simp] theorem State.hostAfter_bk (s : State) (seen : Option Response) (t : State) :
    (s.hostAfter seen t).bk = t.bk := rfl
@[simp] theorem State.hostAfter_it (s : State) (seen : Option Response) (t : State) :
    (s.hostAfter seen t).it = t.it := rfl
@[simp] theorem State.hostAfter_rd (s : State) (seen : Option Response) (t : State) :
    (s.hostAfter seen t).rd = t.rd := rfl
@[simp] theorem State.hostAfter_rs (s : State) (seen : Option Response) (t : State) :
    (s.hostAfter seen t).rs = t.rs := rfl
@[simp] theorem State.hostAfter_ri (s : State) (seen : Option Response) (t : State) :
    (s.hostAfter seen t).ri = t.ri := rfl
@[simp] theorem State.hostAfter_script (s : State) (seen : Option Response) (t : State) :
    (s.hostAfter seen t).script = scriptAfter s.kind s.script := rfl
@[simp] theorem State.hostAfter_stalls (s : State) (seen : Option Response) (t : State) :
    (s.hostAfter seen t).stalls = s.stalls.tail := rfl
@[simp] theorem State.hostAfter_record (s : State) (seen : Option Response) (t : State) :
    (s.hostAfter seen t).record = s.record ++ seen.toList := rfl

/-! ### The edges that change nothing -/

@[simp] theorem State.stallEdge_eq (s : State) : s.stallEdge = s := rfl
@[simp] theorem State.quietEdge_eq (s : State) : s.quietEdge = s := rfl
@[simp] theorem State.holdEdge_eq (s : State) : s.holdEdge = s := rfl

/-! ### The loop registers -/

@[simp] theorem State.loopRegs_k (s : State) : s.loopRegs.k = s.k := rfl
@[simp] theorem State.loopRegs_b (s : State) : s.loopRegs.b = s.b := rfl
@[simp] theorem State.loopRegs_j (s : State) : s.loopRegs.j = s.j := rfl
@[simp] theorem State.loopRegs_it (s : State) : s.loopRegs.it = s.it := rfl
@[simp] theorem State.loopRegs_setLoopRegs (s : State) (l : LoopRegs) : (s.setLoopRegs l).loopRegs = l := rfl
@[simp] theorem State.setLoopRegs_loopRegs (s : State) : s.setLoopRegs s.loopRegs = s := rfl
@[simp] theorem State.loopRegs_startLoop (s : State) (key : Word64) (buckets : Word32) :
    (s.startLoop key buckets).loopRegs = LoopRegs.init key := rfl
@[simp] theorem State.loopRegs_answer (s : State) (data : Word64) (status : Status) (iters : Word32) :
    (s.answer data status iters).loopRegs = s.loopRegs := rfl

@[simp] theorem LoopRegs.init_k (key : Word64) : (LoopRegs.init key).k = key := rfl
@[simp] theorem LoopRegs.init_b (key : Word64) : (LoopRegs.init key).b = -1#64 := rfl
@[simp] theorem LoopRegs.init_j (key : Word64) : (LoopRegs.init key).j = 0#64 := rfl
@[simp] theorem LoopRegs.init_it (key : Word64) : (LoopRegs.init key).it = 0#32 := rfl
@[simp] theorem LoopRegs.body_k (l : LoopRegs) : l.body.k = lcgStep l.k := rfl
@[simp] theorem LoopRegs.body_b (l : LoopRegs) : l.body.b = l.j := rfl
@[simp] theorem LoopRegs.body_j (l : LoopRegs) :
    l.body.j = floorDiv l.numerator ((ushr33 (lcgStep l.k)).setWidth 31) := rfl
@[simp] theorem LoopRegs.body_it (l : LoopRegs) : l.body.it = l.it + 1#32 := rfl

/-! ### `State.withFetchWord` and the reset state -/

@[simp] theorem State.withFetchWord_st (s : State) (nbits w : Nat) : (s.withFetchWord nbits w).st = .idle := rfl
@[simp] theorem State.withFetchWord_script (s : State) (nbits w : Nat) :
    (s.withFetchWord nbits w).script = .request (BitVec.ofNat 99 (w % 2 ^ nbits)) :: s.script := rfl
@[simp] theorem State.reset_st : State.reset.st = .idle := rfl
@[simp] theorem State.reset_script : State.reset.script = [] := rfl
@[simp] theorem State.reset_stalls : State.reset.stalls = [] := rfl
@[simp] theorem State.reset_record : State.reset.record = [] := rfl

end Sys2Proof.Machine
end

