-- ==== Sys2Proof/Laws/Ops.lean ====
section
/-! SUPPORT. For each shared operation of Machine/Operands.lean and Machine/Ops.lean, what it can do. -/

namespace Sys2Proof.Machine

/-! ### The ports -/

@[simp] theorem HostAction.ports_edge (p : PortIn) (r : Bool) : (HostAction.edge p r).ports = p := rfl
@[simp] theorem HostAction.ports_request (w : ReqWord) : (HostAction.request w).ports = PortIn.offer w := rfl
@[simp] theorem HostAction.ports_reset_rst : HostAction.reset.ports.rst = true := rfl
@[simp] theorem HostAction.ports_wait_rst : HostAction.wait.ports.rst = false := rfl
@[simp] theorem HostAction.ports_wait_reqValid : HostAction.wait.ports.reqValid = false := rfl
@[simp] theorem HostAction.ports_wait_rspReady : HostAction.wait.ports.rspReady = true := rfl
@[simp] theorem HostAction.ports_tick (n : Nat) : (HostAction.tick n).ports = PortIn.quiet := rfl

@[simp] theorem PortIn.quiet_rst : PortIn.quiet.rst = false := rfl
@[simp] theorem PortIn.quiet_reqValid : PortIn.quiet.reqValid = false := rfl
@[simp] theorem PortIn.quiet_rspReady : PortIn.quiet.rspReady = false := rfl
@[simp] theorem PortIn.offer_rst (w : ReqWord) : (PortIn.offer w).rst = false := rfl
@[simp] theorem PortIn.offer_reqValid (w : ReqWord) : (PortIn.offer w).reqValid = true := rfl
@[simp] theorem PortIn.offer_rspReady (w : ReqWord) : (PortIn.offer w).rspReady = false := rfl

/-! ### The host's next action -/

theorem nextAction_nil : nextAction [] = (.tick 1, []) := rfl

theorem nextAction_cons (a : HostAction) (rest : List HostAction) (h : a ≠ .tick 0) :
    nextAction (a :: rest) = (a, rest) := by
  cases a with
  | tick n =>
    cases n with
    | zero => exact absurd rfl h
    | succ n => rfl
  | _ => rfl

/-- The action in force takes at least one edge. -/
theorem nextAction_ne_tick_zero (l : List HostAction) : (nextAction l).1 ≠ .tick 0 := by
  induction l with
  | nil => simp [nextAction]
  | cons a rest ih =>
    by_cases h : a = .tick 0
    · subst h; exact ih
    · rw [nextAction_cons a rest h]; exact h

theorem State.action_eq (s : State) (a : HostAction) (rest : List HostAction) (hs : s.script = a :: rest)
    (h : a ≠ .tick 0) : s.action = a := by
  simp [State.action, hs, nextAction_cons a rest h]

theorem State.action_nil (s : State) (hs : s.script = []) : s.action = .tick 1 := by
  simp [State.action, hs, nextAction]

/-! ### The host after an edge (R78) -/

@[simp] theorem scriptAfter_nil (k : EdgeKind) : scriptAfter k [] = [] := rfl
@[simp] theorem scriptAfter_edge (k : EdgeKind) (p : PortIn) (r : Bool) (rest : List HostAction) :
    scriptAfter k (.edge p r :: rest) = rest := rfl
@[simp] theorem scriptAfter_reset (k : EdgeKind) (rest : List HostAction) :
    scriptAfter k (.reset :: rest) = rest := rfl
@[simp] theorem scriptAfter_request_accept (w v : ReqWord) (rest : List HostAction) :
    scriptAfter (.accept v) (.request w :: rest) = rest := rfl
theorem scriptAfter_request_other (k : EdgeKind) (w : ReqWord) (rest : List HostAction) (h : ∀ v, k ≠ .accept v) :
    scriptAfter k (.request w :: rest) = .request w :: rest := by
  cases k with
  | accept v => exact absurd rfl (h v)
  | _ => rfl
@[simp] theorem scriptAfter_wait_deliver (rest : List HostAction) : scriptAfter .deliver (.wait :: rest) = rest := rfl
theorem scriptAfter_wait_other (k : EdgeKind) (rest : List HostAction) (h : k ≠ .deliver) :
    scriptAfter k (.wait :: rest) = .wait :: rest := by
  cases k with
  | deliver => exact absurd rfl h
  | _ => rfl
@[simp] theorem scriptAfter_tick_one (k : EdgeKind) (rest : List HostAction) :
    scriptAfter k (.tick 1 :: rest) = rest := rfl
@[simp] theorem scriptAfter_tick_succ (k : EdgeKind) (n : Nat) (rest : List HostAction) :
    scriptAfter k (.tick (n + 2) :: rest) = .tick (n + 1) :: rest := rfl
@[simp] theorem scriptAfter_tick_zero (k : EdgeKind) (rest : List HostAction) :
    scriptAfter k (.tick 0 :: rest) = scriptAfter k rest := rfl

/-! ### The kind of an edge (R30) -/

theorem edgeKind_reset (p : PortIn) (stall : Bool) (st : SeqState) (h : p.rst = true) :
    edgeKind p stall st = .reset := by
  simp [edgeKind, h]

theorem edgeKind_stall (p : PortIn) (st : SeqState) (h : p.rst = false) : edgeKind p true st = .stall := by
  simp [edgeKind, h]

theorem edgeKind_accept (p : PortIn) (h : p.rst = false) (hv : p.reqValid = true) :
    edgeKind p false .idle = .accept p.word := by
  simp [edgeKind, h, hv]

theorem edgeKind_quiet (p : PortIn) (h : p.rst = false) (hv : p.reqValid = false) :
    edgeKind p false .idle = .quiet := by
  simp [edgeKind, h, hv]

theorem edgeKind_loop (p : PortIn) (h : p.rst = false) : edgeKind p false .iter = .loop := by
  simp [edgeKind, h]

theorem edgeKind_deliver (p : PortIn) (h : p.rst = false) (hr : p.rspReady = true) :
    edgeKind p false .resp = .deliver := by
  simp [edgeKind, h, hr]

theorem edgeKind_hold (p : PortIn) (h : p.rst = false) (hr : p.rspReady = false) :
    edgeKind p false .resp = .hold := by
  simp [edgeKind, h, hr]

/-- Everything an edge can be, with what each case needs. -/
theorem edgeKind_cases (p : PortIn) (stall : Bool) (st : SeqState) :
    (p.rst = true ∧ edgeKind p stall st = .reset) ∨
    (p.rst = false ∧ stall = true ∧ edgeKind p stall st = .stall) ∨
    (p.rst = false ∧ stall = false ∧ st = .idle ∧ p.reqValid = false ∧ edgeKind p stall st = .quiet) ∨
    (p.rst = false ∧ stall = false ∧ st = .idle ∧ p.reqValid = true ∧ edgeKind p stall st = .accept p.word) ∨
    (p.rst = false ∧ stall = false ∧ st = .iter ∧ edgeKind p stall st = .loop) ∨
    (p.rst = false ∧ stall = false ∧ st = .resp ∧ p.rspReady = true ∧ edgeKind p stall st = .deliver) ∨
    (p.rst = false ∧ stall = false ∧ st = .resp ∧ p.rspReady = false ∧ edgeKind p stall st = .hold) := by
  rcases p with ⟨rst, v, op, a, b, r⟩
  cases rst <;> cases stall <;> cases st <;> cases v <;> cases r <;> simp [edgeKind]

/-- Delivery needs RESP. -/
theorem edgeKind_deliver_resp (p : PortIn) (stall : Bool) (st : SeqState) (h : edgeKind p stall st = .deliver) :
    st = .resp := by
  rcases edgeKind_cases p stall st with h1 | h1 | h1 | h1 | h1 | h1 | h1
  · simp [h] at h1
  · simp [h] at h1
  · simp [h] at h1
  · simp [h] at h1
  · simp [h] at h1
  · exact h1.2.2.1
  · simp [h] at h1

/-- Acceptance needs IDLE, `req_valid`, no reset and no stall, and takes the word on the ports (R32, R204). -/
theorem edgeKind_accept_iff (p : PortIn) (stall : Bool) (st : SeqState) (w : ReqWord) :
    edgeKind p stall st = .accept w ↔
      p.rst = false ∧ stall = false ∧ st = .idle ∧ p.reqValid = true ∧ p.word = w := by
  constructor
  · intro h
    rcases edgeKind_cases p stall st with h1 | h1 | h1 | h1 | h1 | h1 | h1
    · simp [h] at h1
    · simp [h] at h1
    · simp [h] at h1
    · obtain ⟨a, b, c, d, e⟩ := h1
      rw [h] at e
      exact ⟨a, b, c, d, (EdgeKind.accept.inj e).symm⟩
    · simp [h] at h1
    · simp [h] at h1
    · simp [h] at h1
  · rintro ⟨a, rfl, rfl, d, rfl⟩
    exact edgeKind_accept p a d

/-! ### The loop edge (R33) -/

theorem State.loopEdge_body (s : State) (h : s.loopRegs.continues s.bk = true) :
    s.loopEdge = s.setLoopRegs s.loopRegs.body := by
  simp [State.loopEdge, h]

theorem State.loopEdge_exit (s : State) (h : s.loopRegs.continues s.bk = false) :
    s.loopEdge = s.answer s.loopRegs.result .ok s.it := by
  simp [State.loopEdge, h]

/-- The loop condition is the signed comparison of R104. -/
theorem LoopRegs.continues_iff (l : LoopRegs) (bk : Word32) :
    l.continues bk = true ↔ l.j.toInt < bk.toInt := by
  have h1 : (bk.signExtend 64).toInt = bk.toInt := BitVec.toInt_signExtend_of_le (by decide)
  rw [LoopRegs.continues, BitVec.slt_iff_toInt_lt, h1]

/-- The result is the low half of `b` (R106). -/
theorem LoopRegs.result_toNat (l : LoopRegs) : l.result.toNat = l.b.toNat % 2 ^ 32 := by
  simp only [LoopRegs.result, BitVec.toNat_setWidth]
  omega

/-! ### The host's read (R205) -/

theorem State.readRsp_resp (s : State) (h : s.st = .resp) :
    s.readRsp = .ok { data := s.rd, status := s.rs, iters := s.ri } := by
  simp [State.readRsp, State.rspValid, h]

theorem State.readRsp_invalid (s : State) (h : s.st ≠ .resp) : s.readRsp = .error .rspReadWhileInvalid := by
  simp [State.readRsp, State.rspValid, h]

theorem State.sampled_none (s : State) (h : s.samples = false) : s.sampled = .ok none := by
  simp [State.sampled, h]

theorem State.sampled_resp (s : State) (h : s.samples = true) (hr : s.st = .resp) :
    s.sampled = .ok (some { data := s.rd, status := s.rs, iters := s.ri }) := by
  simp [State.sampled, h, s.readRsp_resp hr, Except.map]

theorem State.sampled_invalid (s : State) (h : s.samples = true) (hr : s.st ≠ .resp) :
    s.sampled = .error .rspReadWhileInvalid := by
  simp [State.sampled, h, s.readRsp_invalid hr, Except.map]

/-- `WAIT` reads exactly at the edge that delivers (R78), so it never reads too early. -/
theorem State.samples_wait (s : State) (h : s.action = .wait) : s.samples = (s.kind == .deliver) := by
  simp [State.samples, h]

end Sys2Proof.Machine
end

