-- ==== Sys2Proof/Laws/PerInstr.lean ====
section
/-! SUPPORT. Families of facts proved constructor by constructor. -/

/-- The encoded word carries the operation's own opcode in `REQ[98:96]` (R70, R72), for a well-formed operation. -/
def Sys2Proof.Laws.EncodedOpcode.Statement (i : Sys2Proof.Instr) : Prop :=
  i.wellFormed = true ∧ Sys2Proof.opField (Sys2Proof.encode i) = i.opcode

namespace Sys2Proof.Laws.EncodedOpcode

theorem assign (key : Word64) (buckets : Word32) : Statement (.assign key buckets) := ⟨rfl, opField_reqWord _ _ _⟩
theorem lcg (x : Word64) : Statement (.lcg x) := ⟨rfl, opField_reqWord _ _ _⟩
theorem ushr33 (x : Word64) : Statement (.ushr33 x) := ⟨rfl, opField_reqWord _ _ _⟩
theorem recip (s : Word31) : Statement (.recip s) := ⟨rfl, opField_reqWord _ _ _⟩
theorem floordiv (n : Word32) (s : Word31) : Statement (.floordiv n s) := ⟨rfl, opField_reqWord _ _ _⟩
theorem reserved101 : Statement .reserved101 := ⟨rfl, opField_reqWord _ _ _⟩
theorem reserved110 : Statement .reserved110 := ⟨rfl, opField_reqWord _ _ _⟩
theorem reserved111 : Statement .reserved111 := ⟨rfl, opField_reqWord _ _ _⟩

end Sys2Proof.Laws.EncodedOpcode
end

