-- ==== Sys2Proof/Laws/Step.lean ====
section
/-! SUPPORT. What an edge of the block and a step of the machine can do, said once. -/

namespace Sys2Proof.Machine

/-- Each rule of R30 with the state it leads to. -/
theorem blockEdge_cases (p : PortIn) (stall : Bool) (s : State) :
    (p.rst = true ∧ blockEdge p stall s = .next s.resetEdge) ∨
    (p.rst = false ∧ stall = true ∧ blockEdge p stall s = .next s) ∨
    (p.rst = false ∧ stall = false ∧ s.st = .idle ∧ p.reqValid = false ∧ blockEdge p stall s = .next s) ∨
    (p.rst = false ∧ stall = false ∧ s.st = .idle ∧ p.reqValid = true ∧
      blockEdge p stall s = exec (decode p.word) s) ∨
    (p.rst = false ∧ stall = false ∧ s.st = .iter ∧ blockEdge p stall s = .next s.loopEdge) ∨
    (p.rst = false ∧ stall = false ∧ s.st = .resp ∧ p.rspReady = true ∧
      blockEdge p stall s = .next s.deliverEdge) ∨
    (p.rst = false ∧ stall = false ∧ s.st = .resp ∧ p.rspReady = false ∧ blockEdge p stall s = .next s) := by
  rcases edgeKind_cases p stall s.st with h | h | h | h | h | h | h
  · exact .inl ⟨h.1, by simp [blockEdge, h]⟩
  · exact .inr (.inl ⟨h.1, h.2.1, by simp [blockEdge, h.2.2]⟩)
  · exact .inr (.inr (.inl ⟨h.1, h.2.1, h.2.2.1, h.2.2.2.1, by simp [blockEdge, h.2.2.2.2]⟩))
  · exact .inr (.inr (.inr (.inl ⟨h.1, h.2.1, h.2.2.1, h.2.2.2.1, by simp [blockEdge, h.2.2.2.2]⟩)))
  · exact .inr (.inr (.inr (.inr (.inl ⟨h.1, h.2.1, h.2.2.1, by simp [blockEdge, h.2.2.2]⟩))))
  · exact .inr (.inr (.inr (.inr (.inr (.inl ⟨h.1, h.2.1, h.2.2.1, h.2.2.2.1, by simp [blockEdge, h.2.2.2.2]⟩)))))
  · exact .inr (.inr (.inr (.inr (.inr (.inr ⟨h.1, h.2.1, h.2.2.1, h.2.2.2.1, by simp [blockEdge, h.2.2.2.2]⟩)))))

/-- If a step answers a next state, the host's read succeeded, the block took an edge, and the host went on. -/
theorem step_next_iff (s t : State) :
    step s = .next t ↔
      ∃ seen u, s.sampled = .ok seen ∧ blockEdge s.ports s.stallNow s = .next u ∧ t = s.hostAfter seen u := by
  unfold step
  cases hs : s.sampled with
  | error f => simp
  | ok seen =>
    cases hb : blockEdge s.ports s.stallNow s with
    | next u => simp [eq_comm]
    | fault f => simp
    | refused r => simp

/-- The two things an accepted ASSIGN does (R32). -/
theorem exec_assign (key : Word64) (buckets : Word32) (s : State) :
    exec (.assign key buckets) s =
      if clampTest buckets then .next (s.answer 0#64 .clamped 0#32) else .next (s.startLoop key buckets) := rfl

@[simp] theorem exec_lcg (x : Word64) (s : State) : exec (.lcg x) s = .next (s.answer (lcgStep x) .ok 0#32) := rfl
@[simp] theorem exec_ushr33 (x : Word64) (s : State) : exec (.ushr33 x) s = .next (s.answer (ushr33 x) .ok 0#32) := rfl
@[simp] theorem exec_recip (v : Word31) (s : State) : exec (.recip v) s = .next (s.answer (recipBits v) .ok 0#32) := rfl
@[simp] theorem exec_floordiv (n : Word32) (v : Word31) (s : State) :
    exec (.floordiv n v) s = .next (s.answer (floorDiv n v) .ok 0#32) := rfl
@[simp] theorem exec_reserved101 (s : State) : exec .reserved101 s = .next (s.answer 0#64 .illegalOp 0#32) := rfl
@[simp] theorem exec_reserved110 (s : State) : exec .reserved110 s = .next (s.answer 0#64 .illegalOp 0#32) := rfl
@[simp] theorem exec_reserved111 (s : State) : exec .reserved111 s = .next (s.answer 0#64 .illegalOp 0#32) := rfl

/-- Every next state an operation can answer: a response written at once, or the start of ASSIGN's loop (R32). -/
theorem exec_next_cases (i : Instr) (s t : State) (h : exec i s = .next t) :
    (∃ data status, t = s.answer data status 0#32) ∨
    (∃ key buckets, i = .assign key buckets ∧ clampTest buckets = false ∧ t = s.startLoop key buckets) := by
  cases i with
  | assign key buckets =>
    rw [exec_assign] at h
    cases hc : clampTest buckets <;> rw [hc] at h <;> cases h
    · exact .inr ⟨key, buckets, rfl, hc, rfl⟩
    · exact .inl ⟨_, _, rfl⟩
  | _ => cases h; exact .inl ⟨_, _, rfl⟩

end Sys2Proof.Machine
end

