-- ==== Sys2Proof/Laws/Run.lean ====
section
/-! SUPPORT. Runs of the machine and of the block alone, one edge at a time. -/

namespace Sys2Proof.Machine

/-- A run whose first step answers a next state goes on from there. -/
theorem run_step (n : Nat) (s t : State) (h : step s = .next t) :
    Host.Core.run Sys2Proof.core (n + 1) s = Host.Core.run Sys2Proof.core n t := by
  have h' : Sys2Proof.core.step s = .next t := h
  simp only [Host.Core.run, h']

/-- A run of `n + m` steps is a run of `n` steps and then one of `m`. -/
theorem run_add (n m : Nat) (s t : State) (h : Host.Core.run Sys2Proof.core n s = .next t) :
    Host.Core.run Sys2Proof.core (n + m) s = Host.Core.run Sys2Proof.core m t := by
  induction n generalizing s with
  | zero => cases h; simp
  | succ n ih =>
    rw [show n + 1 + m = (n + m) + 1 by omega]
    simp only [Host.Core.run] at *
    cases hst : Sys2Proof.core.step s with
    | next u => rw [hst] at h; exact ih u h
    | fault f => rw [hst] at h; cases h
    | refused r => rw [hst] at h; cases h

/-- The block's run, one edge on. -/
theorem blockRun_cons (e : EdgeIn) (es : List EdgeIn) (s t : State) (h : blockEdge e.ports e.stall s = .next t) :
    blockRun (e :: es) s = blockRun es t := by
  simp only [blockRun, h]

theorem liveEdges_cons (e : EdgeIn) (es : List EdgeIn) :
    liveEdges (e :: es) = (if e.stall then 0 else 1) + liveEdges es := by
  cases h : e.stall <;> simp [liveEdges, h]; omega

end Sys2Proof.Machine
end

