-- ==== Sys2Proof/Tests/Slice0.lean ====
section
/-! SUPPORT. Small tests. Expected values are those of spec/95_test_vectors.md (its vector ids stand in the comments) or of
the rule named; the witnesses at the end meet the hypotheses of the statements. -/

namespace Sys2Proof.Tests

open Sys2Proof.Machine

/-- The reset state with a host script. -/
def scripted (l : List HostAction) : State := { State.reset with script := l }

/-- A state in ITER with a given index and bucket count. -/
def inIter (b j : Word64) (bk it : Word32) : State :=
  { State.reset with st := .iter, k := 1#64, b := b, j := j, bk := bk, it := it }

/-- A state in RESP. -/
def inResp : State := { State.reset with st := .resp, rd := 6#64, ri := 2#32 }

/-- One field of the next state, if there is one. -/
def after {α : Type} (f : State → α) (o : Host.Outcome State Fault Refusal) : Option α :=
  match o with
  | .next t => some (f t)
  | _ => none

/-! ### Well-formedness: what each check refuses (R70, R78) -/

theorem test_wf_word : wordInRange (2 ^ 99 - 1) = true ∧ wordInRange (2 ^ 99) = false := by decide
theorem test_wf_key : AsmLine.wellFormed (.assign (2 ^ 64) 1) = false ∧ AsmLine.wellFormed (.assign (-2 ^ 63 - 1) 1) = false := by
  decide
theorem test_wf_buckets : AsmLine.wellFormed (.assign 1 (2 ^ 32)) = false ∧ AsmLine.wellFormed (.assign 1 (-2 ^ 31 - 1)) = false := by
  decide
theorem test_wf_recip : AsmLine.wellFormed (.recip (2 ^ 31)) = false ∧ AsmLine.wellFormed (.recip (-1)) = false := by decide
theorem test_wf_floordiv : AsmLine.wellFormed (.floordiv (2 ^ 32) 0) = false ∧ AsmLine.wellFormed (.floordiv 0 (2 ^ 31)) = false := by
  decide
theorem test_wf_req : AsmLine.wellFormed (.req 8 0 0) = false ∧ AsmLine.wellFormed (.req (-1) 0 0) = false := by decide
theorem test_wf_line : ProgramLine.wellFormed (.request (.recip (-1))) = false := by decide

/-! ### Decoding: each constructor from a word written bit by bit from R70, R72, R73 -/

/-- op 000, key 1, buckets 10: A-14's word. -/
theorem test_decode_assign : decode 0x000000000000000010000000A#99 = .assign 1#64 10#32 := by decide
/-- op 001, L-9: `req_b` all ones is ignored. -/
theorem test_decode_lcg : decode 0x10000000000000001FFFFFFFF#99 = .lcg 1#64 := by decide
/-- op 010, U-7. -/
theorem test_decode_ushr33 : decode 0x20123456789ABCDEF00000000#99 = .ushr33 0x0123456789ABCDEF#64 := by decide
/-- op 011, RC-12: every ignored bit set. -/
theorem test_decode_recip : decode 0x3FFFFFFFFFFFFFFFFFFFFFFFF#99 = .recip 0x7FFFFFFF#31 := by decide
/-- op 100, F-20: every ignored bit set. -/
theorem test_decode_floordiv : decode 0x4FFFFFFFF00000001FFFFFFFF#99 = .floordiv 1#32 0x7FFFFFFF#31 := by decide
/-- op 101, X-4. -/
theorem test_decode_reserved101 : decode 0x5000000000000123400005678#99 = .reserved101 := by decide
/-- op 110, X-2. -/
theorem test_decode_reserved110 : decode 0x6FFFFFFFFFFFFFFFFFFFFFFFF#99 = .reserved110 := by decide
/-- op 111, X-3. -/
theorem test_decode_reserved111 : decode 0x7000000000000123400005678#99 = .reserved111 := by decide
/-- A-22's key and count, field by field. -/
theorem test_decode_assign_key :
    decode 0x0CEB137480C7F714200000040#99 = .assign (BitVec.ofInt 64 (-3552997848431759038)) 64#32 := by decide
/-- Bit 99 is no bit of REQ (R70). -/
theorem test_decode_refuses : decodeNat (2 ^ 99) = .error .bitAbove98 := by decide
theorem test_encode_floordiv : encode (.floordiv 49#32 1644167167#31) = 0x4000000000000003161FFFFFF#99 := by decide

/-! ### The operations -/

theorem test_lcg_wraps : lcgStep 0xFFFFFFFFFFFFFFFF#64 = 0xD844D119784F4F04#64 := by decide -- L-3
theorem test_lcg_mixed : lcgStep 0x0123456789ABCDEF#64 = 0x164BFC69C9AED534#64 := by decide -- L-7
theorem test_ushr33_logical : ushr33 0xFFFFFFFFFFFFFFFF#64 = 0x7FFFFFFF#64 := by decide -- U-2
theorem test_ushr33_lowest_kept : ushr33 0x200000000#64 = 1#64 := by decide -- U-5
theorem test_recip_middle : recipBits 2#31 = 0x3E18000000000000#64 := by decide -- RC-3
theorem test_recip_below_one : recipBits 2147483646#31 = 0x3FEFFFFFFFC00000#64 := by decide -- RC-7
theorem test_floordiv_rounds_up : floorDiv 2147483646#32 2147483646#31 = 2147483647#64 := by decide -- F-16
theorem test_floordiv_max : floorDiv 4294967295#32 0#31 = 0x7FFFFFFF80000000#64 := by decide -- F-7
theorem test_assign_trace : assign 1#64 10#32 = { data := 6#64, status := 0#2, iters := 2#32 } := by decide -- A-14
theorem test_assign_rounding :
    assign (BitVec.ofInt 64 (-3552997848431759038)) 64#32 = { data := 48#64, status := 0#2, iters := 2#32 } := by
  decide -- A-22
/-- L1-4: the value 1 is the one the spec's rules give (log 16). -/
theorem test_assign_min_key : assign 0x8000000000000000#64 2#32 = { data := 1#64, status := 0#2, iters := 2#32 } := by decide
theorem test_exec_clamp : after State.rs (exec (.assign 5#64 0x80000000#32) State.reset) = some 0b01#2 := by decide -- A-6
theorem test_exec_assign_starts : after State.b (exec (.assign 1#64 10#32) inResp) = some 0xFFFFFFFFFFFFFFFF#64 := by decide
theorem test_exec_reserved101 : after State.rs (exec .reserved101 inResp) = some 0b10#2 := by decide -- X-1
theorem test_exec_reserved110 : after State.rd (exec .reserved110 inResp) = some 0#64 := by decide -- X-2
theorem test_exec_reserved111 : after State.ri (exec .reserved111 inResp) = some 0#32 := by decide -- X-3

/-! ### The step -/

/-- A-14, body 2 (R115): `b = 6`, `k` as the trace says, `j = 17`. -/
theorem test_body_two :
    (LoopRegs.body ⟨0x27BB2EE687B0B0FE#64, 0#64, 6#64, 1#32⟩) = ⟨0x685DF62133ED8B07#64, 6#64, 17#64, 2#32⟩ := by decide
theorem test_step_accepts_first :
    after State.rd (step (State.reset.withFetchWord 104 0x100000000000000010000000A)) = some 0x27BB2EE687B0B0FE#64 := by
  decide
theorem test_step_exit : after State.rd (step (inIter 6#64 17#64 10#32 2#32)) = some 6#64 := by decide
/-- R200: reset wins over an offered request. -/
theorem test_reset_wins :
    after State.st (step (scripted [.edge ⟨true, true, 1#3, 1#64, 0#32, false⟩ false])) = some .idle := by decide
/-- R205. -/
theorem test_early_read_faults : step (scripted [.edge PortIn.quiet true]) = .fault .rspReadWhileInvalid := rfl

/-! ### The assembler (R78) -/

theorem test_parse_assign : parseLine "ASSIGN -3552997848431759038, 64".toList = .ok (.request (.assign (-3552997848431759038) 64)) := by
  decide
theorem test_parse_hex : parseLine "REQ 5, 0x1234, 0x5678".toList = .ok (.request (.req 5 0x1234 0x5678)) := by decide
theorem test_parse_tick : parseLine "TICK 5".toList = .ok (.tick 5) := by decide
/-- Program P1's first and P2's eighth lines (R78 says nothing of comments, log 10). -/
theorem test_parse_comment : parseLine "RESET                               -- e0".toList = .ok .reset ∧
    parseLine "FLOORDIV 1, 333289331                   -- 0x4000000000000000113DD9773  (j = 6 < 10: go on)".toList =
      .ok (.request (.floordiv 1 333289331)) := by decide
theorem test_parse_unknown : parseLine "NOP".toList = .error .unknownMnemonic := by decide
theorem test_assemble_recip : assembleLine (.recip 1644167167) = .ok 0x30000000061FFFFFF00000000#99 := by decide -- RC-9
theorem test_assemble_range : assembleLine (.recip (2 ^ 31)) = .error .operandOutOfRange := by decide

/-! ### Witnesses: states and operands that meet the hypotheses of the statements, one for each clause -/

theorem witness_DecodeUndoesEncode : (Instr.recip 0x7FFFFFFF#31).wellFormed = true := by decide
theorem witness_ResponseWordReadsBack :
    (⟨1#64, 0b10#2, 0#32⟩ : Response).status ≠ 0b11#2 ∧ (⟨1#64, 0b11#2, 0#32⟩ : Response).status = 0b11#2 := by decide
/-- R78's boundary values, those in range and those just outside, for each branch of the statement. -/
theorem witness_AssemblerLineGivesItsRequest :
    [AsmLine.assign (-2 ^ 63) (-2 ^ 31), .assign (2 ^ 64 - 1) (2 ^ 32 - 1), .recip 0, .recip (2 ^ 31 - 1),
      .floordiv (2 ^ 32 - 1) (2 ^ 31 - 1), .req 0 0 0, .req 7 0 0].all (fun l => (assembleLine l).toBool) = true ∧
    [AsmLine.assign (-2 ^ 63 - 1) 0, .assign (2 ^ 64) 0, .assign 0 (-2 ^ 31 - 1), .assign 0 (2 ^ 32), .recip (-1),
      .recip (2 ^ 31), .floordiv (-1) 0, .floordiv (2 ^ 32) 0, .floordiv 0 (-1), .floordiv 0 (2 ^ 31), .req (-1) 0 0,
      .req 8 0 0].all (fun l => decide (assembleLine l = .error .operandOutOfRange)) = true := by decide
theorem witness_ReservedOpcodesAnswerIllegalOp :
    Instr.reserved110 = .reserved101 ∨ Instr.reserved110 = .reserved110 ∨ Instr.reserved110 = .reserved111 := by decide
theorem witness_AssignClampsNonPositiveBuckets : (0#32).toInt ≤ 0 ∧ (0x80000000#32).toInt ≤ 0 := by decide
theorem witness_AssignStartsTheLoop : 1 ≤ (1#32).toInt ∧ 1 ≤ (0x7FFFFFFF#32).toInt := by decide
theorem witness_OneStatusPerResponse :
    exec (decode (reqWord 0b000#3 1#64 0#32)) State.reset = .next { State.reset with rs := 0b01#2, st := .resp } := rfl
theorem witness_StepRunsTheDecodedRequest :
    let s := scripted [.request 0x100000000000000010000000A#99]
    s.st = .idle ∧ s.ports.rst = false ∧ s.stallNow = false ∧ s.ports.reqValid = true ∧
    decode s.ports.word = .lcg 1#64 ∧ (Instr.lcg 1#64).wellFormed = true ∧ s.sampled = .ok none := by decide
theorem witness_IdleWithoutRequestChangesNothing :
    State.reset.st = .idle ∧ PortIn.quiet.rst = false ∧ PortIn.quiet.reqValid = false := by decide
theorem witness_IterEdgeRunsOneBody :
    let s := inIter 0#64 9#64 10#32 1#32
    PortIn.quiet.rst = false ∧ s.st = .iter ∧ 0 ≤ s.j.toInt ∧ s.j.toInt < s.bk.toInt := by decide
theorem witness_IterEdgeLeaves :
    let s := inIter 0#64 10#64 10#32 1#32
    PortIn.quiet.rst = false ∧ s.st = .iter ∧ 0 ≤ s.j.toInt ∧ s.bk.toInt ≤ s.j.toInt := by decide
theorem witness_RespHoldsUntilTaken : HostAction.wait.ports.rst = false ∧ inResp.st = .resp := by decide
theorem witness_ResetEdgeGoesToIdle :
    (scripted [.reset]).ports.rst = true ∧ HostAction.reset.ports.rst = true := by decide
theorem witness_ResetEdgeKeepsOtherRegisters : HostAction.reset.ports.rst = true := rfl
theorem witness_StallEdgeChangesNothing :
    PortIn.quiet.rst = false ∧ ({ inResp with stalls := [true] } : State).stallNow = true := by decide
theorem witness_ResponseRegistersWrittenOnlyIntoResp :
    blockEdge (PortIn.offer 0x100000000000000000000000A#99) false State.reset =
      .next { State.reset with rd := 1#64, st := .resp } ∧ (1#64 : Word64) ≠ State.reset.rd := ⟨rfl, by decide⟩
theorem witness_LoopRegistersWrittenOnlyByAssign :
    blockEdge (PortIn.offer 0x000000000000000010000000A#99) false State.reset = .next (State.reset.startLoop 1#64 10#32) ∧
    (State.reset.startLoop 1#64 10#32).k ≠ State.reset.k ∧ (State.reset.startLoop 1#64 10#32).bk ≠ State.reset.bk :=
  ⟨rfl, by decide, by decide⟩
theorem witness_RequestInputsIgnoredOutsideIdle :
    inResp.st ≠ .idle ∧ PortIn.quiet.rst = (PortIn.offer 5#99).rst ∧ PortIn.quiet.rspReady = (PortIn.offer 5#99).rspReady := by
  decide
theorem witness_OnlyAnInvalidReadFaults :
    let s := scripted [.edge PortIn.quiet true]
    (s.samples = true ∧ s.st ≠ .resp) ∧ ¬ (State.reset.samples = true ∧ State.reset.st ≠ .resp) := by decide
theorem witness_ReadsReturnTheResponseRegisters :
    let s : State := { inResp with script := [.wait] }
    s.samples = true ∧
      step s = .next { inResp with st := .idle, record := [{ data := 6#64, status := 0#2, iters := 2#32 }] } := ⟨rfl, rfl⟩
theorem witness_TickLetsEdgesPass :
    1 ≤ 3 ∧ (scripted [.tick 3]).st = .idle ∧ (scripted [.tick 3]).script = .tick 3 :: [] := by decide
/-- Program P3's use: `TICK 5` in ITER; and one TICK left in RESP. -/
theorem witness_TickCountsDownInAnyState :
    let s : State := { inIter 0#64 6#64 10#32 1#32 with script := [.tick 5, .reset] }
    let s' : State := { inResp with script := [.tick 1, .reset] }
    (s.st = .iter ∧ s.script = .tick (4 + 1) :: [.reset]) ∧ s'.st = .resp ∧ s'.script = .tick (0 + 1) :: [.reset] := by decide
theorem witness_RequestHoldsUntilDone :
    let s := scripted [.request 0xA#99]
    let s' : State := { inResp with script := [.request 0xA#99] }
    s.accepted = some (decode 0xA#99) ∧ (after State.script (step s)).isSome = true ∧
    s'.accepted = none ∧ (after State.script (step s')).isSome = true := by decide
theorem witness_WaitHoldsUntilDone :
    let s := scripted [.wait]
    let s' : State := { inResp with script := [.wait] }
    s.delivered = none ∧ (after State.script (step s)).isSome = true ∧
    s'.delivered ≠ none ∧ (after State.script (step s')).isSome = true := by decide
theorem witness_RecipBitsFields :
    (2 ^ 0 ≤ (0#31).toNat + 1 ∧ (0#31).toNat + 1 < 2 ^ (0 + 1)) ∧
    (2 ^ 31 ≤ (0x7FFFFFFF#31).toNat + 1 ∧ (0x7FFFFFFF#31).toNat + 1 < 2 ^ (31 + 1)) := by decide
theorem witness_RecipIsExact : (0#31).toNat < (0x7FFFFFFF#31).toNat := by decide
theorem witness_FlRoundsToNearestEven : (0 : ℚ) < 1 := by norm_num
theorem witness_FloorDivRange :
    1 ≤ 1 ∧ 1 ≤ 2 ^ 32 - 1 ∧ 2 ^ 31 - 1 ≤ 2 ^ 31 - 1 ∧ 1 ≤ 2 ^ 32 - 1 ∧ 2 ^ 32 - 1 ≤ 2 ^ 32 - 1 ∧ 1 ≤ 2 ^ 31 - 1 := by decide
theorem witness_FloorDivMonotone : 1 ≤ 2 ∧ 2 ≤ 2 ^ 32 - 1 ∧ 0 ≤ 1 ∧ 1 ≤ 2 ^ 31 - 1 := by decide
theorem witness_FloorDivIsTheRoundedQuotient : 2 ^ 32 - 1 ≤ 2 ^ 32 - 1 ∧ 2 ^ 31 - 1 ≤ 2 ^ 31 - 1 := by decide
theorem witness_AssignLoopEndsInRange : 1 ≤ (1#32).toInt ∧ 1 ≤ (0x7FFFFFFF#32).toInt := witness_AssignStartsTheLoop
theorem witness_AssignResultIsABucket : 1 ≤ (1#32).toInt ∧ 1 ≤ (0x7FFFFFFF#32).toInt := witness_AssignStartsTheLoop
theorem witness_Growing_range : (1 ≤ 1 ∧ 1 ≤ 2 ^ 31 - 1) ∧ 2 ^ 31 - 2 + 1 ≤ 2 ^ 31 - 1 ∧ ¬ (2 ^ 31 - 1 + 1 ≤ 2 ^ 31 - 1) := by decide
theorem witness_Growing_new : jumpIndex 1#64 6 := ⟨1, by decide, by decide⟩
theorem witness_Growing_old : ¬ jumpIndex 0#64 1 := by
  rintro ⟨t, h, hd⟩
  match t, h, hd with
  | 0, h, _ => exact absurd h (by decide)
  | 1, h, _ => exact absurd h (by decide)
  | t + 2, _, hd => exact absurd (hd 1 (by omega)) (by decide)
theorem witness_AssignLevelsAgree :
    let es : List EdgeIn := [⟨PortIn.quiet, false⟩, ⟨PortIn.quiet, true⟩, ⟨PortIn.quiet, false⟩, ⟨PortIn.quiet, false⟩]
    (∀ e ∈ es, e.ports.rst = false) ∧ liveEdges es = (assign 1#64 10#32).iters.toNat + 1 ∧
    liveEdges (es.take 3) ≤ (assign 1#64 10#32).iters.toNat ∧ 1 ≤ (10#32).toInt ∧ (0#32).toInt ≤ 0 := by decide
theorem witness_StepKeepsInv :
    (inIter 0#64 6#64 10#32 1#32).Inv ∧
      (after State.j (step (inIter 0#64 6#64 10#32 1#32))).isSome = true := by
  refine ⟨⟨fun _ => ?_, fun h => by cases h⟩, by decide⟩
  refine ⟨by decide, .inr ⟨by decide, by decide, by decide, by decide, by decide, by decide⟩⟩
theorem witness_RequestThenWaitRecordsTheResponse :
    let s := scripted [.request 0x000000000000000010000000A#99, .wait]
    s.st = .idle ∧ s.stalls = [] ∧ s.script = .request 0x000000000000000010000000A#99 :: .wait :: [] := by decide
/-- The operations that answer at their accepting edge: a clamped ASSIGN, a diagnostic, a reserved opcode. -/
theorem witness_RequestThenWait_at_once :
    [0x00000000000000000FFFFFFFF#99, 0x1000000000000000100000000#99, 0x5000000000000123400005678#99].all (fun w =>
      let s := scripted [.request w, .wait]
      decide (s.st = .idle ∧ s.stalls = [] ∧ s.script = .request w :: .wait :: [] ∧ edgesToResp (decode w) = 0)) = true := by
  decide
theorem witness_ReissueAfterResetGetsTheResponse :
    let s : State := { inIter 0#64 6#64 10#32 1#32 with script := [.reset, .request 0xA#99, .wait] }
    s.stalls = [] ∧ s.script = .reset :: .request 0xA#99 :: .wait :: [] := by decide
theorem witness_ResponsesAnswerRequestsInOrder :
    noResetIn 3 (scripted [.request 0x100000000000000010000000A#99, .wait, .request 0xA#99]) = true := by decide
/-- For `StepReadsNoStaleRegister` and `StaleRegistersNeverShow`. -/
theorem witness_SameVisible : State.reset.SameVisible { State.reset with k := 7#64, rd := 9#64 } :=
  ⟨rfl, rfl, rfl, rfl, fun h => (by cases h), fun h => (by cases h)⟩

end Sys2Proof.Tests
end

section
/-! Rounding to nearest, ties to even (00_scope.md R10): the rounding of a rational to an integer, and `fl` as that
rounding of the significand. -/

namespace Sys2Proof.Machine

/-- The integer that `fl` puts in the place of the significand `x = q / ulp q`. -/
def nearestEven (x : ℚ) : Int :=
  if x - ⌊x⌋ > 1 / 2 ∨ (x - ⌊x⌋ = 1 / 2 ∧ ⌊x⌋ % 2 = 1) then ⌊x⌋ + 1 else ⌊x⌋

/-- `fl` rounds the significand and keeps the unit. -/
theorem fl_eq_nearestEven (q : ℚ) : fl q = nearestEven (q / ulp q) * ulp q := by
  simp only [fl, nearestEven]
  split <;> push_cast <;> rfl

/-- Rounding takes the integer below or the next one, whichever is nearer, and the even one in the middle. -/
theorem nearestEven_cases (x : ℚ) :
    (nearestEven x = ⌊x⌋ ∧ x - ⌊x⌋ ≤ 1 / 2 ∧ (x - ⌊x⌋ = 1 / 2 → ⌊x⌋ % 2 = 0)) ∨
    (nearestEven x = ⌊x⌋ + 1 ∧ 1 / 2 ≤ x - ⌊x⌋ ∧ (x - ⌊x⌋ = 1 / 2 → ⌊x⌋ % 2 = 1)) := by
  unfold nearestEven
  split
  case isTrue h =>
    refine .inr ⟨rfl, ?_, fun he => ?_⟩
    · rcases h with h | ⟨h, -⟩ <;> linarith
    · rcases h with h | ⟨-, h⟩
      · linarith
      · exact h
  case isFalse h =>
    obtain ⟨hle, hodd⟩ := not_or.mp h
    refine .inl ⟨rfl, not_lt.mp hle, fun he => ?_⟩
    have : ⌊x⌋ % 2 ≠ 1 := fun ho => hodd ⟨he, ho⟩
    omega

/-- Rounding moves a rational by at most one half. -/
theorem abs_nearestEven_sub_le (x : ℚ) : |nearestEven x - x| ≤ 1 / 2 := by
  have hfloor := Int.floor_le x
  have hlt := Int.lt_floor_add_one x
  rw [abs_le]
  rcases nearestEven_cases x with ⟨hm, hle, -⟩ | ⟨hm, hge, -⟩
  · rw [hm]; constructor <;> linarith
  · rw [hm]; push_cast; constructor <;> linarith

/-- No integer is nearer than the rounded one. -/
theorem abs_nearestEven_sub_le_abs_sub (x : ℚ) (m : Int) : |nearestEven x - x| ≤ |m - x| := by
  rcases eq_or_ne m (nearestEven x) with rfl | hne
  · exact le_rfl
  · have hhalf := abs_nearestEven_sub_le x
    have hone : (1 : ℚ) ≤ |(m : ℚ) - nearestEven x| := by
      exact_mod_cast Int.one_le_abs (sub_ne_zero.mpr hne)
    have htri := abs_sub_le (m : ℚ) x (nearestEven x)
    rw [abs_sub_comm x] at htri
    linarith

/-- In a tie the rounded integer is even. -/
theorem nearestEven_even_of_tie (x : ℚ) (h : 2 * |nearestEven x - x| = 1) : nearestEven x % 2 = 0 := by
  rcases nearestEven_cases x with ⟨hm, -, heven⟩ | ⟨hm, -, hodd⟩
  · rw [hm, abs_sub_comm, abs_of_nonneg (sub_nonneg.mpr (Int.floor_le x))] at h
    rw [hm]
    exact heven (by linarith)
  · rw [hm, abs_of_nonneg (by push_cast; linarith [Int.lt_floor_add_one x])] at h
    have := hodd (by push_cast at h; linarith)
    omega

/-- Rounding stays between two integers that enclose the rational. -/
theorem nearestEven_mem_Icc (x : ℚ) (lo hi : Int) (hlo : lo ≤ x) (hhi : x < hi) :
    lo ≤ nearestEven x ∧ nearestEven x ≤ hi := by
  have h1 : lo ≤ ⌊x⌋ := Int.le_floor.mpr hlo
  have h2 : ⌊x⌋ < hi := Int.floor_lt.mpr hhi
  rcases nearestEven_cases x with ⟨hm, -, -⟩ | ⟨hm, -, -⟩ <;> omega

theorem ulp_pos (q : ℚ) : 0 < ulp q := zpow_pos two_pos _

/-- The significand of a positive rational lies in `[2^52, 2^53)` (R10). -/
theorem significand_bounds (q : ℚ) (hq : 0 < q) : 2 ^ 52 ≤ q / ulp q ∧ q / ulp q < 2 ^ 53 := by
  have hlow : (2 : ℚ) ^ 52 * ulp q = 2 ^ Int.log 2 q := by
    rw [ulp, ← zpow_natCast, ← zpow_add₀ two_ne_zero]
    congr 1
    ring
  have hhigh : (2 : ℚ) ^ 53 * ulp q = 2 ^ (Int.log 2 q + 1) := by
    rw [zpow_add_one₀ two_ne_zero, ← hlow]
    ring
  rw [le_div_iff₀ (ulp_pos q), div_lt_iff₀ (ulp_pos q), hlow, hhigh]
  exact ⟨Int.zpow_log_le_self one_lt_two hq, Int.lt_zpow_succ_log_self one_lt_two q⟩

/-- The distance of a multiple of the unit to `q`, in units. -/
theorem abs_mul_ulp_sub (q : ℚ) (m : Int) : |m * ulp q - q| = |m - q / ulp q| * ulp q := by
  have hu := ulp_pos q
  calc |m * ulp q - q| = |(m - q / ulp q) * ulp q| := by rw [sub_mul, div_mul_cancel₀ q hu.ne']
    _ = |m - q / ulp q| * ulp q := by rw [abs_mul, abs_of_pos hu]

/-- Settles O35: `fl` rounds the significand to the nearest integer, ties to even, and the distances scale by the unit. -/
theorem flRoundsToNearestEven : Obligations.FlRoundsToNearestEven := by
  unfold Obligations.FlRoundsToNearestEven
  intro q hq
  have hu := ulp_pos q
  obtain ⟨hlo, hhi⟩ := significand_bounds q hq
  obtain ⟨hm, hm'⟩ := nearestEven_mem_Icc (q / ulp q) (2 ^ 52) (2 ^ 53) (by exact_mod_cast hlo) (by exact_mod_cast hhi)
  refine ⟨nearestEven (q / ulp q), fl_eq_nearestEven q, hm, hm', fun m' => ?_, fun htie => ?_⟩
  · rw [abs_mul_ulp_sub, abs_mul_ulp_sub]
    exact mul_le_mul_of_nonneg_right (abs_nearestEven_sub_le_abs_sub _ m') hu.le
  · rw [abs_mul_ulp_sub, ← mul_assoc, mul_eq_right₀ hu.ne'] at htie
    exact nearestEven_even_of_tie _ htie

end Sys2Proof.Machine
end

section
/-! The range of the divider's integer algorithm (44_floor_divider.md R161, R162). -/

namespace Sys2Proof.Machine

/-- Rounding does not pass an integer that the quotient does not pass. -/
theorem roundEven_div_mod_le (x H M : Nat) (hH : 0 < H) (h : x ≤ M * H) : roundEven (x / H) (x % H) H ≤ M := by
  have hdiv : x / H ≤ M := Nat.div_le_of_le_mul (by rwa [Nat.mul_comm])
  rcases roundEven_cases (x / H) (x % H) H with ⟨hr, -, -⟩ | ⟨hr, hup, -⟩
  · omega
  · have hne : x / H ≠ M := by
      rintro rfl
      have := Nat.div_add_mod' x H
      omega
    omega

/-- The rounded quotient is not below a natural number that the quotient is not below and that has at most 52 bits. -/
theorem le_truncFlQuot (n N D : Nat) (hn : n ≤ 2 ^ 52) (hD : 0 < D) (h : n * D ≤ N) (hq : D ≤ N) :
    n ≤ truncFlQuot N D := by
  have hN : N ≠ 0 := (hD.trans_le hq).ne'
  have hquot : N / D ≠ 0 := (Nat.div_pos hq hD).ne'
  rcases Nat.lt_or_ge (Nat.log2 (N / D)) 52 with hp | hp
  · rw [truncFlQuot_low N D hN hp, Nat.le_div_iff_mul_le (Nat.two_pow_pos _)]
    refine le_trans ?_ (roundEven_ge _ _ _)
    rw [Nat.le_div_iff_mul_le hD, Nat.mul_right_comm]
    exact Nat.mul_le_mul_right _ h
  · rw [truncFlQuot_high N D hN hp, ← Nat.div_div_eq_div_mul]
    refine hn.trans (le_trans ?_ (Nat.le_mul_of_pos_right _ (Nat.two_pow_pos _)))
    refine le_trans ?_ (roundEven_ge _ _ _)
    rw [Nat.le_div_iff_mul_le (Nat.two_pow_pos _), ← Nat.pow_add, Nat.add_sub_cancel' hp]
    exact Nat.log2_self_le hquot

/-- The rounded quotient does not pass a numerator that is a multiple of its unit in the last place. -/
theorem truncFlQuot_le (N D : Nat) (hD : 0 < D) (h : 2 ^ (Nat.log2 (N / D) - 52) ∣ N) : truncFlQuot N D ≤ N := by
  rcases eq_or_ne N 0 with rfl | hN
  · rw [truncFlQuot_zero]
  rcases Nat.lt_or_ge (Nat.log2 (N / D)) 52 with hp | hp
  · rw [truncFlQuot_low N D hN hp]
    exact Nat.div_le_of_le_mul (Nat.mul_comm _ N ▸ roundEven_div_mod_le _ D _ hD (Nat.le_mul_of_pos_right _ hD))
  · rw [truncFlQuot_high N D hN hp]
    obtain ⟨M, hM⟩ := h
    have hround := roundEven_div_mod_le N (D * 2 ^ (Nat.log2 (N / D) - 52)) M
      (Nat.mul_pos hD (Nat.two_pow_pos _))
      (calc N = M * 2 ^ (Nat.log2 (N / D) - 52) := by rw [Nat.mul_comm]; exact hM
        _ ≤ M * (D * 2 ^ (Nat.log2 (N / D) - 52)) := Nat.mul_le_mul_left _ (Nat.le_mul_of_pos_left _ hD))
    calc _ ≤ M * 2 ^ (Nat.log2 (N / D) - 52) := Nat.mul_le_mul_right _ hround
      _ = N := by rw [Nat.mul_comm]; exact hM.symm

/-- R162's lower bound: `Recip(s)` is at most 1, so the quotient is not below `n`. -/
theorem le_floorDivNat (n s : Nat) (hn : n ≤ 2 ^ 32 - 1) (hs : s ≤ 2 ^ 31 - 1) : n ≤ floorDivNat n s := by
  rcases Nat.eq_zero_or_pos n with rfl | hpos
  · exact Nat.zero_le _
  · rw [floorDivNat, scale_eq]
    have hle : n * (s + 1) ≤ 2 ^ 31 * n := by
      rw [Nat.mul_comm]
      exact Nat.mul_le_mul_right _ (by omega)
    exact le_truncFlQuot n _ _ (by omega) (Nat.succ_pos s) hle (by omega)

/-- R162's upper bound: the numerator `n * 2^31` has 31 zero bits, more than rounding can drop. -/
theorem floorDivNat_le (n s : Nat) (hn : n ≤ 2 ^ 32 - 1) : floorDivNat n s ≤ 2 ^ 31 * n := by
  rw [floorDivNat, scale_eq]
  refine truncFlQuot_le _ _ (Nat.succ_pos s) ?_
  have hquot : 2 ^ 31 * n / (s + 1) < 2 ^ 63 := (Nat.div_le_self _ _).trans_lt (by omega)
  have hlog : Nat.log2 (2 ^ 31 * n / (s + 1)) ≤ 63 := by
    rw [Nat.log2_eq_log_two]
    exact (Nat.log_mono_right hquot.le).trans_eq (Nat.log_pow one_lt_two 63)
  exact (Nat.pow_dvd_pow 2 (by omega)).trans (Nat.dvd_mul_right _ _)

/-- The divider's output, read as a number (R163): nothing is lost on 64 bits. -/
theorem floorDiv_toNat (n : Word32) (s : Word31) : (floorDiv n s).toNat = floorDivNat n.toNat s.toNat := by
  have hn := n.isLt
  have hle := floorDivNat_le n.toNat s.toNat (by omega)
  rw [floorDiv, BitVec.toNat_ofNat, Nat.mod_eq_of_lt (by omega)]

/-- The divider's output as a signed number lies between `n` and `n * 2^31` (R162). -/
theorem floorDiv_toInt_bounds (n : Word32) (s : Word31) :
    (n.toNat : Int) ≤ (floorDiv n s).toInt ∧ (floorDiv n s).toInt ≤ 2 ^ 31 * n.toNat := by
  have hn := n.isLt
  have hs := s.isLt
  have hlo := le_floorDivNat n.toNat s.toNat (by omega) (by omega)
  have hhi := floorDivNat_le n.toNat s.toNat (by omega)
  rw [BitVec.toInt_eq_toNat_of_lt (by rw [floorDiv_toNat]; omega), floorDiv_toNat]
  omega

end Sys2Proof.Machine
end

section
/-! The loop of ASSIGN (40_assign.md R104, R105, R108, R109): the index strictly increases, so the loop ends within
`buckets` bodies. -/

namespace Sys2Proof.Machine

/-- A word that is not negative has the same value signed and unsigned. -/
theorem toInt_eq_toNat_of_nonneg {w : Nat} (x : BitVec w) (h : 0 ≤ x.toInt) : x.toInt = x.toNat :=
  BitVec.toInt_eq_toNat_of_msb (by rw [BitVec.msb_eq_toInt]; exact decide_eq_false (not_lt.mpr h))

/-- R102's test fails exactly when there is a bucket. -/
theorem clampTest_eq_false_iff (buckets : Word32) : clampTest buckets = false ↔ 1 ≤ buckets.toInt := by
  simp only [clampTest, decide_eq_false_iff_not]
  omega

/-- Below the bucket count the numerator is `j + 1`, unwrapped (R109). -/
theorem LoopRegs.numerator_toNat (l : LoopRegs) (bk : Word32) (hj : 0 ≤ l.j.toInt) (hc : l.continues bk = true) :
    (l.numerator.toNat : Int) = l.j.toInt + 1 := by
  have hlt := (l.continues_iff bk).mp hc
  have hbk := @BitVec.toInt_lt 32 bk
  have hnat := toInt_eq_toNat_of_nonneg l.j hj
  have hsum : l.numerator.toNat = (l.j.toNat + 1) % 2 ^ 64 % 2 ^ 32 := by
    rw [LoopRegs.numerator, BitVec.toNat_setWidth, BitVec.toNat_add, BitVec.toNat_ofNat, Nat.add_mod_mod]
  omega

/-- A body moves the index up, and not past R109's bound. -/
theorem LoopRegs.body_j_bounds (l : LoopRegs) (bk : Word32) (hj : 0 ≤ l.j.toInt) (hc : l.continues bk = true) :
    l.j.toInt + 1 ≤ l.body.j.toInt ∧ l.body.j.toInt ≤ (2 ^ 31 - 1) * 2 ^ 31 := by
  have hlt := (l.continues_iff bk).mp hc
  have hbk := @BitVec.toInt_lt 32 bk
  have hnum := l.numerator_toNat bk hj hc
  have := floorDiv_toInt_bounds l.numerator ((ushr33 (lcgStep l.k)).setWidth 31)
  rw [LoopRegs.body_j]
  omega

/-- The iteration counter counts the bodies (R105). -/
theorem jumpRegs_it (key : Word64) (t : Nat) : (jumpRegs key t).it = BitVec.ofNat 32 t := by
  induction t with
  | zero => rfl
  | succ t ih => rw [jumpRegs, LoopRegs.body_it, ih, BitVec.ofNat_add]

/-- After `t` bodies that the loop condition allowed, the index is at least `t` (R109). -/
theorem le_jumpRegs_j (key : Word64) (bk : Word32) (t : Nat) (h : ∀ u < t, (jumpRegs key u).continues bk = true) :
    (t : Int) ≤ (jumpRegs key t).j.toInt := by
  induction t with
  | zero => exact le_rfl
  | succ t ih =>
    have hj := ih fun u hu => h u (by omega)
    have hb := (jumpRegs key t).body_j_bounds bk (by omega) (h t (by omega))
    rw [jumpRegs]
    omega

/-- The loop of R100 with fuel for the bodies left stops at the first index that the condition refuses. -/
theorem assignLoop_jumpRegs (key : Word64) (bk : Word32) (I n t fuel : Nat) (hI : t + n = I) (hfuel : n ≤ fuel)
    (hgo : ∀ u < I, (jumpRegs key u).continues bk = true) (hstop : (jumpRegs key I).continues bk = false) :
    assignLoop fuel bk (jumpRegs key t) = jumpRegs key I := by
  induction n generalizing t fuel with
  | zero =>
    obtain rfl : t = I := hI
    cases fuel with
    | zero => rfl
    | succ fuel => simp [assignLoop, hstop]
  | succ n ih =>
    obtain ⟨fuel, rfl⟩ : ∃ f, fuel = f + 1 := ⟨fuel - 1, by omega⟩
    rw [assignLoop, if_pos (hgo t (by omega))]
    exact ih (t + 1) fuel (by omega) (by omega)

/-- The loop condition fails after at most `buckets` bodies; `I` is the number of bodies before it does (R108). -/
theorem exists_loop_exit (key : Word64) (bk : Word32) (hbk : 1 ≤ bk.toInt) :
    ∃ I ≤ bk.toNat, (∀ u < I, (jumpRegs key u).continues bk = true) ∧ (jumpRegs key I).continues bk = false := by
  have hpos := toInt_eq_toNat_of_nonneg bk (by omega)
  have hex : ∃ t ≤ bk.toNat, (jumpRegs key t).continues bk = false := by
    by_contra hnone
    have hgo : ∀ u ≤ bk.toNat, (jumpRegs key u).continues bk = true := fun u hu =>
      Bool.eq_true_of_not_eq_false fun hf => hnone ⟨u, hu, hf⟩
    have hj := le_jumpRegs_j key bk bk.toNat fun u hu => hgo u hu.le
    have := ((jumpRegs key bk.toNat).continues_iff bk).mp (hgo _ le_rfl)
    omega
  have hstop := Nat.find_spec hex
  refine ⟨Nat.find hex, hstop.1, fun u hu => ?_, hstop.2⟩
  exact Bool.eq_true_of_not_eq_false fun hf => Nat.find_min hex hu ⟨hu.le.trans hstop.1, hf⟩

/-- The response to an ASSIGN is read from the loop registers at the exit (R100, R106). -/
theorem assign_eq_of_loop_exit (key : Word64) (bk : Word32) (I : Nat) (hbk : 1 ≤ bk.toInt) (hI : I ≤ bk.toNat)
    (hgo : ∀ u < I, (jumpRegs key u).continues bk = true) (hstop : (jumpRegs key I).continues bk = false) :
    assign key bk =
      { data := (jumpRegs key I).result, status := Status.ok.code, iters := BitVec.ofNat 32 I } := by
  have hloop := assignLoop_jumpRegs key bk I I 0 bk.toNat (by omega) hI hgo hstop
  rw [jumpRegs] at hloop
  simp [assign, (clampTest_eq_false_iff bk).mpr hbk, hloop, jumpRegs_it]

end Sys2Proof.Machine
end

section
/-! A request and its WAIT in the reference timing (30_encoding.md R78, 70_reset_and_hazards.md R210): one lemma per
step of the way, then the run. -/

namespace Sys2Proof.Machine

/-- The host is at a `WAIT`, with `rest` to come, in the reference timing. -/
structure State.Waiting (s : State) (rest : List HostAction) : Prop where
  stalls : s.stalls = []
  script : s.script = .wait :: rest

/-- Writing the loop registers leaves the host where it is. -/
theorem State.Waiting.setLoopRegs (s : State) (rest : List HostAction) (hw : s.Waiting rest) (l : LoopRegs) :
    (s.setLoopRegs l).Waiting rest := ⟨hw.stalls, hw.script⟩

/-- The registers behind the response ports (R23). -/
def State.rspRegs (s : State) : Response := { data := s.rd, status := s.rs, iters := s.ri }

@[simp] theorem State.rspRegs_answer (s : State) (data : Word64) (status : Status) (iters : Word32) :
    (s.answer data status iters).rspRegs = { data := data, status := status.code, iters := iters } := rfl

@[simp] theorem State.setLoopRegs_setLoopRegs (s : State) (l l' : LoopRegs) :
    (s.setLoopRegs l).setLoopRegs l' = s.setLoopRegs l' := rfl

/-- The host's side of an edge changes nothing when its script, the draws and the record stay as they are. -/
theorem State.hostAfter_eq_self (s t : State) (hscript : scriptAfter s.kind s.script = t.script)
    (hstalls : s.stalls.tail = t.stalls) (hrecord : s.record = t.record) : s.hostAfter none t = t := by
  simp [State.hostAfter, hscript, hstalls, hrecord]

/-- In the reference timing the kind of an edge comes from the action ahead and `st` alone. -/
theorem State.kind_eq (s : State) (a : HostAction) (rest : List HostAction) (hstalls : s.stalls = [])
    (hs : s.script = a :: rest) (h : a ≠ .tick 0) : s.kind = edgeKind a.ports false s.st := by
  simp [State.kind, State.ports, s.action_eq a rest hs h, State.stallNow, hstalls]

/-- A loop edge keeps the host's fields. -/
theorem State.loopEdge_host (s : State) :
    s.loopEdge.script = s.script ∧ s.loopEdge.stalls = s.stalls ∧ s.loopEdge.record = s.record := by
  unfold State.loopEdge
  split <;> exact ⟨rfl, rfl, rfl⟩

/-- An operation's accepting edge keeps the host's fields. -/
theorem exec_host (i : Instr) (s t : State) (h : exec i s = .next t) :
    t.script = s.script ∧ t.stalls = s.stalls ∧ t.record = s.record := by
  rcases exec_next_cases i s t h with ⟨data, status, rfl⟩ | ⟨key, buckets, -, -, rfl⟩
  · exact ⟨rfl, rfl, rfl⟩
  · exact ⟨rfl, rfl, rfl⟩

/-- In IDLE a request line's edge accepts its word, and the host goes on to the next line (R32, R78). -/
theorem step_request (s t : State) (w : ReqWord) (rest : List HostAction) (hst : s.st = .idle) (hstalls : s.stalls = [])
    (hscript : s.script = .request w :: rest) (hexec : exec (decode w) s = .next t) :
    step s = .next { t with script := rest } := by
  have hkind : s.kind = .accept w := by
    rw [s.kind_eq _ rest hstalls hscript (by simp), hst, edgeKind_accept _ rfl rfl, HostAction.ports_request,
      PortIn.offer_word]
  have hsampled : s.sampled = .ok none :=
    s.sampled_none (by rw [State.samples, s.action_eq _ rest hscript (by simp)])
  have hedge : blockEdge s.ports s.stallNow s = .next t := by
    rw [← hexec, blockEdge, ← State.kind, hkind]
  obtain ⟨-, htstalls, htrecord⟩ := exec_host _ s t hexec
  refine (step_next_iff s _).mpr ⟨none, t, hsampled, hedge, ?_⟩
  simp [State.hostAfter, hkind, hscript, hstalls, htstalls, htrecord]

/-- In ITER, WAIT lets one loop edge pass and stays (R33, R78). -/
theorem step_wait_iter (s : State) (rest : List HostAction) (hst : s.st = .iter) (hw : s.Waiting rest) :
    step s = .next s.loopEdge := by
  have hkind : s.kind = .loop := by rw [s.kind_eq _ rest hw.stalls hw.script (by simp), hst, edgeKind_loop _ rfl]
  have hsampled : s.sampled = .ok none :=
    s.sampled_none (by rw [s.samples_wait (s.action_eq _ rest hw.script (by simp)), hkind]; rfl)
  have hedge : blockEdge s.ports s.stallNow s = .next s.loopEdge := by rw [blockEdge, ← State.kind, hkind]
  obtain ⟨hlscript, hlstalls, hlrecord⟩ := s.loopEdge_host
  refine (step_next_iff s _).mpr ⟨none, s.loopEdge, hsampled, hedge, (s.hostAfter_eq_self _ ?_ ?_ hlrecord.symm).symm⟩
  · rw [hkind, hlscript, hw.script, scriptAfter_wait_other _ _ (by simp)]
  · rw [hlstalls, hw.stalls, List.tail_nil]

/-- In RESP, WAIT takes the response and records it (R34, R78). -/
theorem step_wait_resp (s : State) (rest : List HostAction) (hst : s.st = .resp) (hw : s.Waiting rest) :
    step s = .next { s with st := .idle, script := rest, record := s.record ++ [s.rspRegs] } := by
  have hkind : s.kind = .deliver := by
    rw [s.kind_eq _ rest hw.stalls hw.script (by simp), hst, edgeKind_deliver _ rfl rfl]
  have hsampled : s.sampled = .ok (some s.rspRegs) :=
    s.sampled_resp (by rw [s.samples_wait (s.action_eq _ rest hw.script (by simp)), hkind]; rfl) hst
  have hedge : blockEdge s.ports s.stallNow s = .next s.deliverEdge := by rw [blockEdge, ← State.kind, hkind]
  refine (step_next_iff s _).mpr ⟨some s.rspRegs, s.deliverEdge, hsampled, hedge, ?_⟩
  simp [State.hostAfter, State.deliverEdge, hkind, hw.script, hw.stalls]

/-- A run, and one step more. -/
theorem run_succ (n : Nat) (s t u : State) (hrun : Host.Core.run Sys2Proof.core n s = .next t)
    (hstep : step t = .next u) : Host.Core.run Sys2Proof.core (n + 1) s = .next u := by
  rw [run_add n 1 s t hrun, run_step 0 t u hstep]
  rfl

/-- While the loop condition holds, WAIT lets one body an edge pass (R33). -/
theorem run_wait_bodies (s : State) (rest : List HostAction) (key : Word64) (n : Nat) (hst : s.st = .iter)
    (hw : s.Waiting rest) (hinit : s.loopRegs = LoopRegs.init key)
    (hgo : ∀ u < n, (jumpRegs key u).continues s.bk = true) :
    Host.Core.run Sys2Proof.core n s = .next (s.setLoopRegs (jumpRegs key n)) := by
  induction n with
  | zero => rw [jumpRegs, ← hinit]; rfl
  | succ n ih =>
    refine run_succ n s _ _ (ih fun u hu => hgo u (by omega)) ?_
    rw [step_wait_iter (s.setLoopRegs _) rest hst (hw.setLoopRegs s rest _),
      State.loopEdge_body (s.setLoopRegs _) (hgo n (by omega))]
    rfl

/-- From the start of the loop, WAIT lets the `I` bodies and the exit edge pass, and the response registers then hold the
response of the transaction level (R107, R210). -/
theorem run_wait_loop (s : State) (rest : List HostAction) (key : Word64) (hst : s.st = .iter) (hw : s.Waiting rest)
    (hinit : s.loopRegs = LoopRegs.init key) (hbk : 1 ≤ s.bk.toInt) :
    ∃ t, Host.Core.run Sys2Proof.core ((assign key s.bk).iters.toNat + 1) s = .next t ∧
      t.st = .resp ∧ t.Waiting rest ∧ t.record = s.record ∧ t.rspRegs = assign key s.bk := by
  obtain ⟨I, hI, hgo, hstop⟩ := exists_loop_exit key s.bk hbk
  have hassign := assign_eq_of_loop_exit key s.bk I hbk hI hgo hstop
  have hiters : (assign key s.bk).iters.toNat = I := by
    rw [hassign, BitVec.toNat_ofNat, Nat.mod_eq_of_lt (hI.trans_lt s.bk.isLt)]
  have hexit : step (s.setLoopRegs (jumpRegs key I)) =
      .next ((s.setLoopRegs (jumpRegs key I)).answer (jumpRegs key I).result .ok (jumpRegs key I).it) := by
    rw [step_wait_iter (s.setLoopRegs _) rest hst (hw.setLoopRegs s rest _),
      State.loopEdge_exit (s.setLoopRegs _) hstop]
    rfl
  refine ⟨(s.setLoopRegs (jumpRegs key I)).answer (jumpRegs key I).result .ok (jumpRegs key I).it, ?_, rfl,
    ⟨hw.stalls, hw.script⟩, rfl, ?_⟩
  · rw [hiters]
    exact run_succ I s _ _ (run_wait_bodies s rest key I hst hw hinit hgo) hexit
  · rw [State.rspRegs_answer, jumpRegs_it, hassign]

/-- The accepting edge of an operation: it answers at once with the response of the transaction level, or it starts the loop
of an ASSIGN with a bucket (R32). -/
theorem exec_respond_cases (i : Instr) (s : State) :
    (∃ data status, exec i s = .next (s.answer data status 0#32) ∧ edgesToResp i = 0 ∧
      respond i = { data := data, status := status.code, iters := 0#32 }) ∨
    (∃ key buckets, i = .assign key buckets ∧ 1 ≤ buckets.toInt ∧ exec i s = .next (s.startLoop key buckets) ∧
      edgesToResp i = (assign key buckets).iters.toNat + 1) := by
  cases i with
  | assign key buckets =>
    cases hc : clampTest buckets with
    | true =>
      exact .inl ⟨0#64, .clamped, by simp [exec_assign, hc], by simp [edgesToResp, hc], by simp [respond, assign, hc]⟩
    | false =>
      exact .inr ⟨key, buckets, rfl, (clampTest_eq_false_iff buckets).mp hc, by simp [exec_assign, hc],
        by simp [edgesToResp, hc]⟩
  | _ => exact .inl ⟨_, _, rfl, rfl, rfl⟩

/-- From IDLE, a request line and then WAIT: after the accepting edge and R210's edges to RESP the response registers hold
the response of the transaction level. -/
theorem run_request_to_resp (s : State) (w : ReqWord) (rest : List HostAction) (hst : s.st = .idle)
    (hstalls : s.stalls = []) (hscript : s.script = .request w :: .wait :: rest) :
    ∃ t, Host.Core.run Sys2Proof.core (edgesToResp (decode w) + 1) s = .next t ∧
      t.st = .resp ∧ t.Waiting rest ∧ t.record = s.record ∧ t.rspRegs = respond (decode w) := by
  rcases exec_respond_cases (decode w) s with
    ⟨data, status, hexec, hedges, hresp⟩ | ⟨key, buckets, hi, hbk, hexec, hedges⟩
  · have hstep := step_request s _ w (.wait :: rest) hst hstalls hscript hexec
    refine ⟨{ s.answer data status 0#32 with script := .wait :: rest }, ?_, rfl, ⟨hstalls, rfl⟩, rfl, hresp.symm⟩
    rw [hedges]
    exact run_succ 0 s s _ rfl hstep
  · have hstep := step_request s _ w (.wait :: rest) hst hstalls hscript hexec
    obtain ⟨t, hrun, hresp⟩ := run_wait_loop { s.startLoop key buckets with script := .wait :: rest } rest key
      rfl ⟨hstalls, rfl⟩ rfl hbk
    refine ⟨t, ?_, ?_⟩
    · rw [hedges, run_step _ _ _ hstep]
      exact hrun
    · rw [hi]
      exact hresp

/-- Settles O47: the run to RESP, and the one edge at which WAIT takes the response. -/
theorem requestThenWaitRecordsTheResponse : Obligations.RequestThenWaitRecordsTheResponse := by
  unfold Obligations.RequestThenWaitRecordsTheResponse
  intro s w rest hst hstalls hscript
  obtain ⟨t, hrun, htst, hw, hrecord, hrsp⟩ := run_request_to_resp s w rest hst hstalls hscript
  refine ⟨{ t with st := .idle, script := rest, record := t.record ++ [t.rspRegs] }, ?_, rfl, rfl, ?_⟩
  · exact run_succ _ s t _ hrun (step_wait_resp t rest htst hw)
  · simp only [hrecord, hrsp]

end Sys2Proof.Machine
end

section
/-! What an accepted operation writes, the same in every state (10_state.md R32), and what an edge of the
block leads to (10_state.md R30). -/

namespace Sys2Proof.Machine

/-- An operation either answers at once, with data and status that come from its operands alone and data 0 unless the
status is `OK`, or is an ASSIGN that starts its loop. -/
theorem exec_cases (i : Instr) :
    (∃ data status, (status = .ok ∨ data = 0#64) ∧ ∀ s, exec i s = .next (s.answer data status 0#32)) ∨
    (∃ key buckets, i = .assign key buckets ∧ 1 ≤ buckets.toInt ∧ ∀ s, exec i s = .next (s.startLoop key buckets)) := by
  cases i with
  | assign key buckets =>
    cases hc : clampTest buckets with
    | true => exact .inl ⟨0#64, .clamped, .inr rfl, fun s => by simp [exec_assign, hc]⟩
    | false => exact .inr ⟨key, buckets, rfl, (clampTest_eq_false_iff buckets).mp hc, fun s => by simp [exec_assign, hc]⟩
  | reserved101 | reserved110 | reserved111 => exact .inl ⟨0#64, .illegalOp, .inr rfl, fun _ => rfl⟩
  | lcg x => exact .inl ⟨_, .ok, .inl rfl, exec_lcg x⟩
  | ushr33 x => exact .inl ⟨_, .ok, .inl rfl, exec_ushr33 x⟩
  | recip v => exact .inl ⟨_, .ok, .inl rfl, exec_recip v⟩
  | floordiv n v => exact .inl ⟨_, .ok, .inl rfl, exec_floordiv n v⟩

/-- Every operation answers a next state, in every state (R180). -/
theorem exists_exec_next (i : Instr) (s : State) : ∃ t, exec i s = .next t := by
  rcases exec_cases i with ⟨data, status, -, h⟩ | ⟨key, buckets, -, -, h⟩
  · exact ⟨_, h s⟩
  · exact ⟨_, h s⟩

/-- An operation does not look at the host's script. -/
theorem exec_setScript (i : Instr) (s t : State) (l : List HostAction) (h : exec i s = .next t) :
    exec i { s with script := l } = .next { t with script := l } := by
  rcases exec_cases i with ⟨data, status, -, hi⟩ | ⟨key, buckets, -, -, hi⟩
  · rw [hi] at h ⊢
    cases h
    rfl
  · rw [hi] at h ⊢
    cases h
    rfl

/-- The decoder reads an ASSIGN exactly from opcode 000, with the whole fields as its operands (R72, R73). -/
theorem decode_eq_assign_iff (w : ReqWord) (key : Word64) (buckets : Word32) :
    decode w = .assign key buckets ↔ opField w = 0b000#3 ∧ aField w = key ∧ bField w = buckets := by
  unfold decode
  split_ifs with h <;> simp [h]

/-- Every next state of an edge: nothing changes, only `st` goes to IDLE, a request is accepted in IDLE, or the loop goes
on in ITER; the last two at no reset edge and no stall edge (R30, R211). -/
theorem blockEdge_next_cases (p : PortIn) (stall : Bool) (s t : State) (h : blockEdge p stall s = .next t) :
    t = s ∨ t = { s with st := .idle } ∨
    (p.rst = false ∧ stall = false ∧ s.st = .idle ∧ p.reqValid = true ∧ exec (decode p.word) s = .next t) ∨
    (p.rst = false ∧ stall = false ∧ s.st = .iter ∧ t = s.loopEdge) := by
  rcases blockEdge_cases p stall s with
    ⟨-, he⟩ | ⟨-, -, he⟩ | ⟨-, -, -, -, he⟩ | ⟨hr, hs, hst, hv, he⟩ | ⟨hr, hs, hst, he⟩ | ⟨-, -, -, -, he⟩ |
    ⟨-, -, -, -, he⟩
  · exact .inr (.inl (Host.Outcome.next.inj (h.symm.trans he)))
  · exact .inl (Host.Outcome.next.inj (h.symm.trans he))
  · exact .inl (Host.Outcome.next.inj (h.symm.trans he))
  · exact .inr (.inr (.inl ⟨hr, hs, hst, hv, he.symm.trans h⟩))
  · exact .inr (.inr (.inr ⟨hr, hs, hst, Host.Outcome.next.inj (h.symm.trans he)⟩))
  · exact .inr (.inl (Host.Outcome.next.inj (h.symm.trans he)))
  · exact .inl (Host.Outcome.next.inj (h.symm.trans he))

/-- A step with a read that does not fault is the block's edge and the host's side of it. -/
theorem step_of_blockEdge (s u : State) (seen : Option Response) (hs : s.sampled = .ok seen)
    (hb : blockEdge s.ports s.stallNow s = .next u) : step s = .next (s.hostAfter seen u) :=
  (step_next_iff s _).mpr ⟨seen, u, hs, hb, rfl⟩

end Sys2Proof.Machine
end

section
/-! The invariant of the registers (10_state.md R22, 30_encoding.md R76, 40_assign.md R108, R109): each thing an edge can
do keeps it. -/

namespace Sys2Proof.Machine

/-- In IDLE the invariant asks for nothing. -/
theorem State.inv_of_idle (s : State) (h : s.st = .idle) : s.Inv :=
  ⟨fun hi => by simp [h] at hi, fun hr => by simp [h] at hr⟩

/-- In ITER the invariant is the bounds of the loop registers. -/
theorem State.inv_of_iterOk (s : State) (h : s.st = .iter) (hok : s.IterOk) : s.Inv :=
  ⟨fun _ => hok, fun hr => by simp [h] at hr⟩

/-- A response has the invariant when its data and count are 0 unless its status is `OK`, and some bucket count allows
the count. -/
theorem State.inv_answer (s : State) (data : Word64) (status : Status) (iters : Word32)
    (hdata : status = .ok ∨ data = 0#64 ∧ iters = 0#32) (hiters : iters.toNat ≤ 2 ^ 31 - 1) :
    (s.answer data status iters).Inv := by
  refine ⟨fun hi => by simp at hi, fun _ => ⟨?_, hiters⟩⟩
  rcases hdata with rfl | ⟨rfl, rfl⟩
  · exact .inl rfl
  · cases status with
    | ok => exact .inl rfl
    | clamped => exact .inr ⟨.inl rfl, rfl, rfl⟩
    | illegalOp => exact .inr ⟨.inr rfl, rfl, rfl⟩

/-- The start of the loop is the invariant's first case: no body has run. -/
theorem State.inv_startLoop (s : State) (key : Word64) (buckets : Word32) (h : 1 ≤ buckets.toInt) :
    (s.startLoop key buckets).Inv :=
  State.inv_of_iterOk _ rfl ⟨h, .inl ⟨rfl, rfl, rfl⟩⟩

/-- What both cases of the invariant in ITER give: the index is not negative, and not below the number of bodies; and
the number of bodies is at most the bucket count. -/
theorem State.IterOk.it_le {s : State} (h : s.IterOk) :
    0 ≤ s.j.toInt ∧ (s.it.toNat : Int) ≤ s.j.toInt ∧ (s.it.toNat : Int) ≤ s.bk.toInt := by
  obtain ⟨hbk, ⟨-, hj, hit⟩ | ⟨hb, hbbk, hbj, -, -, hit⟩⟩ := h
  · simp only [hj, hit, BitVec.toInt_zero, BitVec.toNat_ofNat]
    omega
  · omega

/-- A body that the loop condition allows keeps the bounds of R109. -/
theorem State.iterOk_body (s : State) (h : s.IterOk) (hc : s.loopRegs.continues s.bk = true) :
    (s.setLoopRegs s.loopRegs.body).IterOk := by
  obtain ⟨hj, hitj, -⟩ := h.it_le
  have hlt : s.j.toInt < s.bk.toInt := (s.loopRegs.continues_iff s.bk).mp hc
  have hbk := @BitVec.toInt_lt 32 s.bk
  obtain ⟨hup, hmax⟩ := s.loopRegs.body_j_bounds s.bk hj hc
  have hit : (s.it + 1#32).toNat = s.it.toNat + 1 := by
    rw [BitVec.toNat_add, BitVec.toNat_ofNat]
    omega
  refine ⟨h.1, .inr ⟨hj, hlt, Int.lt_of_add_one_le hup, hmax, ?_, ?_⟩⟩
  · change 1 ≤ (s.it + 1#32).toNat
    omega
  · change ((s.it + 1#32).toNat : Int) ≤ s.j.toInt + 1
    omega

/-- A loop edge keeps the invariant: a body stays in the bounds, and the exit answers `OK` with a count that the bucket
count bounds. -/
theorem State.inv_loopEdge (s : State) (hst : s.st = .iter) (h : s.IterOk) : s.loopEdge.Inv := by
  cases hc : s.loopRegs.continues s.bk with
  | true =>
    rw [s.loopEdge_body hc]
    exact State.inv_of_iterOk _ hst (s.iterOk_body h hc)
  | false =>
    rw [s.loopEdge_exit hc]
    have hbk := @BitVec.toInt_lt 32 s.bk
    obtain ⟨-, -, hit⟩ := h.it_le
    exact s.inv_answer _ .ok s.it (.inl rfl) (by omega)

/-- An accepting edge leads to the invariant from any state. -/
theorem exec_inv (i : Instr) (s t : State) (h : exec i s = .next t) : t.Inv := by
  rcases exec_cases i with ⟨data, status, hdata, hi⟩ | ⟨key, buckets, -, hbk, hi⟩
  · rw [hi] at h
    cases h
    exact s.inv_answer data status 0#32 (hdata.imp_right fun hd => ⟨hd, rfl⟩) (Nat.zero_le _)
  · rw [hi] at h
    cases h
    exact s.inv_startLoop key buckets hbk

/-- Every edge of the block keeps the invariant, whatever the ports and the draw. -/
theorem blockEdge_inv (p : PortIn) (stall : Bool) (s t : State) (hs : s.Inv) (h : blockEdge p stall s = .next t) :
    t.Inv := by
  rcases blockEdge_next_cases p stall s t h with rfl | rfl | ⟨-, -, -, -, hexec⟩ | ⟨-, -, hst, rfl⟩
  · exact hs
  · exact State.inv_of_idle _ rfl
  · exact exec_inv _ s t hexec
  · exact s.inv_loopEdge hst (hs.1 hst)

/-- Settles O45: the reset state is in IDLE. -/
theorem resetHasInv : Obligations.ResetHasInv := by
  unfold Obligations.ResetHasInv
  exact State.inv_of_idle _ rfl

/-- Settles O46: the block's edge keeps the invariant, and the host's side of the edge writes no register. -/
theorem stepKeepsInv : Obligations.StepKeepsInv := by
  unfold Obligations.StepKeepsInv
  intro s t hs h
  obtain ⟨seen, u, -, hu, rfl⟩ := (step_next_iff s t).mp h
  exact blockEdge_inv s.ports s.stallNow s u hs hu

end Sys2Proof.Machine
end

section
/-! The divider's integer algorithm is the rounded quotient over the rationals (00_scope.md R10, R11,
44_floor_divider.md R160, R161). -/

namespace Sys2Proof.Machine

/-- Rounding a quotient of natural numbers, on the rationals and by quotient and remainder. -/
theorem nearestEven_div (x H : Nat) (hH : 0 < H) :
    nearestEven ((x : ℚ) / H) = roundEven (x / H) (x % H) H := by
  have hpos : (0 : ℚ) < H := Nat.cast_pos.mpr hH
  have hfloor : ⌊(x : ℚ) / H⌋ = ((x / H : Nat) : Int) := by
    rw [← Int.natCast_floor_eq_floor (by positivity), Nat.floor_div_eq_div]
  have hfrac : (x : ℚ) / H - ((x / H : Nat) : Int) = (x % H : Nat) / H := by
    have hdm : (H : ℚ) * (x / H : Nat) + (x % H : Nat) = x := by exact_mod_cast Nat.div_add_mod x H
    rw [Int.cast_natCast, sub_eq_iff_eq_add, div_eq_iff hpos.ne', add_mul, div_mul_cancel₀ _ hpos.ne']
    linarith
  have hgt : ((x % H : Nat) : ℚ) / H > 1 / 2 ↔ H < 2 * (x % H) := by
    rw [gt_iff_lt, div_lt_div_iff₀ two_pos hpos, one_mul, mul_comm]
    exact_mod_cast Iff.rfl
  have heq : ((x % H : Nat) : ℚ) / H = 1 / 2 ↔ 2 * (x % H) = H := by
    rw [div_eq_div_iff hpos.ne' two_ne_zero, one_mul, mul_comm]
    exact_mod_cast Iff.rfl
  have hodd : ((x / H : Nat) : Int) % 2 = 1 ↔ x / H % 2 = 1 := by omega
  simp only [nearestEven, hfloor, hfrac, hgt, heq, hodd, roundEven]
  split <;> simp

/-- For a quotient of at least 1 the binary exponent is the bit length of the integer part. -/
theorem int_log_div (N D : Nat) (hD : 0 < D) (hq : D ≤ N) : Int.log 2 ((N : ℚ) / D) = Nat.log2 (N / D) := by
  have hone : (1 : ℚ) ≤ (N : ℚ) / D := by
    rw [one_le_div₀ (Nat.cast_pos.mpr hD)]
    exact_mod_cast hq
  rw [Int.log_of_one_le_right 2 hone, Nat.floor_div_eq_div, Nat.log2_eq_log_two]

/-- R161's algorithm computes `trunc(fl(N / D))` for every quotient of at least 1. -/
theorem truncFlQuot_eq_truncNonneg_fl (N D : Nat) (hD : 0 < D) (hq : D ≤ N) :
    truncFlQuot N D = truncNonneg (fl ((N : ℚ) / D)) := by
  have hN : N ≠ 0 := (hD.trans_le hq).ne'
  rw [fl_eq_nearestEven, ulp, int_log_div N D hD hq, truncNonneg]
  rcases Nat.lt_or_ge (Nat.log2 (N / D)) 52 with hp | hp
  · have hulp : (2 : ℚ) ^ ((Nat.log2 (N / D) : Int) - 52) = 1 / (2 ^ (52 - Nat.log2 (N / D)) : Nat) := by
      rw [show (Nat.log2 (N / D) : Int) - 52 = -((52 - Nat.log2 (N / D) : Nat) : Int) by omega, zpow_neg,
        zpow_natCast, Nat.cast_pow, Nat.cast_ofNat, one_div]
    have hsig : (N : ℚ) / D / (1 / (2 ^ (52 - Nat.log2 (N / D)) : Nat)) =
        (N * 2 ^ (52 - Nat.log2 (N / D)) : Nat) / D := by
      rw [div_div_eq_mul_div, div_one, Nat.cast_mul, div_mul_eq_mul_div]
    rw [hulp, hsig, nearestEven_div _ D hD, truncFlQuot_low N D hN hp, mul_one_div, Int.cast_natCast,
      ← Int.natCast_floor_eq_floor (by positivity), Nat.floor_div_eq_div, Int.toNat_natCast]
  · have hulp : (2 : ℚ) ^ ((Nat.log2 (N / D) : Int) - 52) = (2 ^ (Nat.log2 (N / D) - 52) : Nat) := by
      rw [← Nat.cast_ofNat (R := Int), ← Nat.cast_sub hp, zpow_natCast, Nat.cast_pow, Nat.cast_ofNat]
    have hsig : (N : ℚ) / D / (2 ^ (Nat.log2 (N / D) - 52) : Nat) =
        N / (D * 2 ^ (Nat.log2 (N / D) - 52) : Nat) := by
      rw [div_div, Nat.cast_mul]
    rw [hulp, hsig, nearestEven_div N _ (Nat.mul_pos hD (Nat.two_pow_pos _)), truncFlQuot_high N D hN hp,
      Int.cast_natCast, ← Nat.cast_mul, Int.floor_natCast, Int.toNat_natCast]

/-- The divider computes R160's value on the whole domain of the shifted state (log 12). -/
theorem floorDivNat_eq_floorDivReal (n s : Nat) (hs : s ≤ 2 ^ 31 - 1) : floorDivNat n s = floorDivReal n s := by
  rcases Nat.eq_zero_or_pos n with rfl | hn
  · rw [floorDivNat_zero, floorDivReal, if_pos rfl]
  · have hquot : (n : ℚ) / recip s = (2 ^ 31 * n : Nat) / (s + 1 : Nat) := by
      rw [recip, div_div_eq_mul_div, mul_comm]
      push_cast
      rfl
    rw [floorDivReal, if_neg hn.ne', hquot, floorDivNat, scale_eq,
      truncFlQuot_eq_truncNonneg_fl _ _ (Nat.succ_pos s) (by omega)]

end Sys2Proof.Machine
end

section
/-! An edge in ITER (10_state.md R33): the loop registers after a body, on integers and rationals. -/

namespace Sys2Proof.Machine

/-- In ITER, without reset or stall, the edge is the loop's (R30). -/
theorem blockEdge_iter (p : PortIn) (s : State) (hr : p.rst = false) (hst : s.st = .iter) :
    blockEdge p false s = .next s.loopEdge := by
  rw [blockEdge, hst, edgeKind_loop p hr]

/-- The next LCG state, as the pattern of R130's integer. -/
theorem lcgStep_eq_ofNat (x : Word64) : lcgStep x = BitVec.ofNat 64 ((2862933555777941757 * x.toNat + 1) % 2 ^ 64) := by
  rw [← lcgStep_toNat, BitVec.ofNat_toNat, BitVec.setWidth_eq]

/-- The loop's result, as the pattern of the low half of `b` (R106). -/
theorem LoopRegs.result_eq_ofNat (l : LoopRegs) : l.result = BitVec.ofNat 64 (l.b.toNat % 2 ^ 32) := by
  rw [← l.result_toNat, BitVec.ofNat_toNat, BitVec.setWidth_eq]

/-- The next index is R160's quotient of `j + 1` and the variate of the next LCG state (R105). -/
theorem LoopRegs.body_j_eq_floorDivReal (l : LoopRegs) (bk : Word32) (hj : 0 ≤ l.j.toInt) (hc : l.continues bk = true) :
    l.body.j = BitVec.ofNat 64 (floorDivReal (l.j.toNat + 1) ((lcgStep l.k).toNat / 2 ^ 33)) := by
  have hnum : l.numerator.toNat = l.j.toNat + 1 := by
    have := l.numerator_toNat bk hj hc
    have := toInt_eq_toNat_of_nonneg l.j hj
    omega
  have hk := (lcgStep l.k).isLt
  rw [l.body_j, floorDiv, hnum, ushr33_setWidth_toNat, floorDivNat_eq_floorDivReal _ _ (by omega)]

/-- Settles O19: the edge is the loop's, and its two branches are R33's. -/
theorem iterEdgeRunsOneBodyOrLeaves : Obligations.IterEdgeRunsOneBodyOrLeaves := by
  unfold Obligations.IterEdgeRunsOneBodyOrLeaves
  intro p s hr hst hj
  rw [blockEdge_iter p s hr hst, ← lcgStep_eq_ofNat]
  refine ⟨fun hlt => ?_, fun hge => ?_⟩
  · have hc := (s.loopRegs.continues_iff s.bk).mpr hlt
    have hindex := s.loopRegs.body_j_eq_floorDivReal s.bk hj hc
    simp only [State.loopRegs_j, State.loopRegs_k] at hindex
    rw [s.loopEdge_body hc, State.setLoopRegs, hindex]
    rfl
  · have hc : s.loopRegs.continues s.bk = false :=
      Bool.eq_false_iff.mpr fun hc => absurd ((s.loopRegs.continues_iff s.bk).mp hc) (not_lt.mpr hge)
    rw [s.loopEdge_exit hc, LoopRegs.result_eq_ofNat]
    rfl

end Sys2Proof.Machine
end

section
/-! Which edges write which registers (10_state.md R22, R31, R34, R35). -/

namespace Sys2Proof.Machine

/-- An accepting edge that changes a response register answers. -/
theorem exec_st_of_rsp_changed (i : Instr) (s t : State) (h : exec i s = .next t)
    (hne : t.rd ≠ s.rd ∨ t.rs ≠ s.rs ∨ t.ri ≠ s.ri) : t.st = .resp := by
  rcases exec_next_cases i s t h with ⟨data, status, rfl⟩ | ⟨key, buckets, -, -, rfl⟩
  · rfl
  · simp at hne

/-- A loop edge that changes a response register is the loop's exit. -/
theorem State.loopEdge_st_of_rsp_changed (s : State)
    (hne : s.loopEdge.rd ≠ s.rd ∨ s.loopEdge.rs ≠ s.rs ∨ s.loopEdge.ri ≠ s.ri) : s.loopEdge.st = .resp := by
  cases hc : s.loopRegs.continues s.bk with
  | true => simp [s.loopEdge_body hc] at hne
  | false => rw [s.loopEdge_exit hc, State.answer_st]

/-- A loop edge keeps the latched bucket count. -/
@[simp] theorem State.loopEdge_bk (s : State) : s.loopEdge.bk = s.bk := by
  cases hc : s.loopRegs.continues s.bk with
  | true => rw [s.loopEdge_body hc, State.setLoopRegs_bk]
  | false => rw [s.loopEdge_exit hc, State.answer_bk]

/-- An accepting edge keeps the loop registers and `bk`, or the ports carry an ASSIGN with a bucket (R32). -/
theorem exec_word_keeps_loop_or_assign (p : PortIn) (s t : State) (h : exec (decode p.word) s = .next t) :
    (t.loopRegs = s.loopRegs ∧ t.bk = s.bk) ∨ (p.reqOp = 0b000#3 ∧ 1 ≤ p.reqB.toInt) := by
  rcases exec_next_cases _ s t h with ⟨data, status, rfl⟩ | ⟨key, buckets, hi, hc, rfl⟩
  · exact .inl ⟨rfl, rfl⟩
  · obtain ⟨hop, -, hb⟩ := (decode_eq_assign_iff _ key buckets).mp hi
    rw [PortIn.word, opField_reqWord] at hop
    rw [PortIn.word, bField_reqWord] at hb
    exact .inr ⟨hop, hb ▸ (clampTest_eq_false_iff buckets).mp hc⟩

/-- An edge keeps the loop registers and `bk`, or it is live and accepts an ASSIGN with a bucket in IDLE, or it is live in
ITER and keeps `bk` (R22). -/
theorem blockEdge_keeps_loop_or (p : PortIn) (stall : Bool) (s t : State) (h : blockEdge p stall s = .next t) :
    (t.loopRegs = s.loopRegs ∧ t.bk = s.bk) ∨
    (p.rst = false ∧ stall = false ∧ s.st = .idle ∧ p.reqValid = true ∧ p.reqOp = 0b000#3 ∧ 1 ≤ p.reqB.toInt) ∨
    (p.rst = false ∧ stall = false ∧ s.st = .iter ∧ t.bk = s.bk) := by
  rcases blockEdge_next_cases p stall s t h with rfl | rfl | ⟨hr, hs, hst, hv, hexec⟩ | ⟨hr, hs, hst, rfl⟩
  · exact .inl ⟨rfl, rfl⟩
  · exact .inl ⟨rfl, rfl⟩
  · rcases exec_word_keeps_loop_or_assign p s t hexec with hkeep | ⟨hop, hb⟩
    · exact .inl hkeep
    · exact .inr (.inl ⟨hr, hs, hst, hv, hop, hb⟩)
  · exact .inr (.inr ⟨hr, hs, hst, s.loopEdge_bk⟩)

/-- Settles O24: of the things an edge can do, only an accepted request and a loop edge write a response register. -/
theorem responseRegistersWrittenOnlyIntoResp : Obligations.ResponseRegistersWrittenOnlyIntoResp := by
  unfold Obligations.ResponseRegistersWrittenOnlyIntoResp
  intro p stall s t h hne
  rcases blockEdge_next_cases p stall s t h with rfl | rfl | ⟨hr, hs, hst, hv, hexec⟩ | ⟨hr, hs, hst, rfl⟩
  · simp at hne
  · simp at hne
  · exact ⟨exec_st_of_rsp_changed _ s t hexec hne, hr, hs, .inr ⟨hst, hv⟩⟩
  · exact ⟨s.loopEdge_st_of_rsp_changed hne, hr, hs, .inl hst⟩

/-- Settles O25: an edge that keeps neither the loop registers nor `bk` accepts an ASSIGN or is in ITER. -/
theorem loopRegistersWrittenOnlyByAssign : Obligations.LoopRegistersWrittenOnlyByAssign := by
  unfold Obligations.LoopRegistersWrittenOnlyByAssign
  intro p stall s t h
  rcases blockEdge_keeps_loop_or p stall s t h with
    ⟨hloop, hbk⟩ | ⟨hr, hs, hst, hassign⟩ | ⟨hr, hs, hst, hbk⟩
  · obtain ⟨hk, hb, hj, hit⟩ := LoopRegs.mk.inj hloop
    exact ⟨fun hne => by simp [hk, hb, hj, hit] at hne, fun hne => absurd hbk hne⟩
  · exact ⟨fun _ => ⟨hr, hs, .inr ⟨hst, hassign⟩⟩, fun _ => ⟨hr, hs, hst, hassign⟩⟩
  · exact ⟨fun _ => ⟨hr, hs, .inl hst⟩, fun hne => absurd hbk hne⟩

/-- Settles O18: with no request in IDLE the edge is a stall edge or a quiet one, and neither writes anything. -/
theorem idleWithoutRequestChangesNothing : Obligations.IdleWithoutRequestChangesNothing := by
  unfold Obligations.IdleWithoutRequestChangesNothing
  intro p stall s hst hr hv
  cases stall with
  | true => rw [blockEdge, edgeKind_stall p s.st hr, State.stallEdge_eq]
  | false => rw [blockEdge, hst, edgeKind_quiet p hr hv, State.quietEdge_eq]

/-- Settles O20: the edge delivers or holds, as `rsp_ready` says. -/
theorem respHoldsUntilTaken : Obligations.RespHoldsUntilTaken := by
  unfold Obligations.RespHoldsUntilTaken
  intro p s hr hst
  cases hready : p.rspReady with
  | true =>
    rw [blockEdge, hst, edgeKind_deliver p hr hready]
    rfl
  | false =>
    rw [blockEdge, hst, edgeKind_hold p hr hready]
    rfl

end Sys2Proof.Machine
end

section
/-! The host's side of a step: the read of the response ports (70_reset_and_hazards.md R205) and an accepted request
(10_state.md R32, 70_reset_and_hazards.md R203). -/

namespace Sys2Proof.Machine

/-- What the host sees when its read does not fault: the response registers if it reads, nothing otherwise. -/
theorem State.seen_eq (s : State) (seen : Option Response) (h : s.sampled = .ok seen) :
    seen = if s.samples then some s.rspRegs else none := by
  cases hsamples : s.samples with
  | false =>
    rw [s.sampled_none hsamples] at h
    exact (Except.ok.inj h).symm
  | true =>
    by_cases hst : s.st = .resp
    · rw [s.sampled_resp hsamples hst] at h
      exact (Except.ok.inj h).symm
    · rw [s.sampled_invalid hsamples hst] at h
      cases h

/-- An edge that accepts a request runs the decoded operation (R32). -/
theorem blockEdge_accept (p : PortIn) (s : State) (hst : s.st = .idle) (hr : p.rst = false) (hv : p.reqValid = true) :
    blockEdge p false s = exec (decode p.word) s := by
  rw [blockEdge, hst, edgeKind_accept p hr hv]

/-- Settles O28: the record grows by what the host saw. -/
theorem readsReturnTheResponseRegisters : Obligations.ReadsReturnTheResponseRegisters := by
  unfold Obligations.ReadsReturnTheResponseRegisters
  intro s t h
  obtain ⟨seen, u, hs, -, rfl⟩ := (step_next_iff s t).mp h
  rw [State.hostAfter_record, s.seen_eq seen hs]
  cases s.samples with
  | true => rfl
  | false => exact List.append_nil _

/-- Settles O16: the edge accepts the word on the ports, and every operation answers a next state. -/
theorem stepRunsTheDecodedRequest : Obligations.StepRunsTheDecodedRequest := by
  unfold Obligations.StepRunsTheDecodedRequest
  intro s i seen hst hr hstall hv hi _ hs
  obtain ⟨t, ht⟩ := exists_exec_next i s
  have hkind : s.kind = .accept s.ports.word := by rw [State.kind, hst, hstall, edgeKind_accept _ hr hv]
  have hedge : blockEdge s.ports s.stallNow s = .next t := by
    rw [hstall, blockEdge_accept s.ports s hst hr hv, hi, ht]
  rw [step_of_blockEdge s t seen hs hedge, ht, State.hostAfter, hkind]

/-- Offering a word to the reset state changes its script alone (log 4). -/
theorem State.reset_withFetchWord (w : ReqWord) :
    State.reset.withFetchWord 104 w.toNat = { State.reset with script := [.request w] } := by
  have hword : BitVec.ofNat 99 (w.toNat % 2 ^ 104) = w := by
    rw [Nat.mod_eq_of_lt (w.isLt.trans (by decide)), BitVec.ofNat_toNat, BitVec.setWidth_eq]
  rw [State.withFetchWord, hword]
  rfl

/-- Settles O17: the offered word is a request line, and the operation does not see that it stood in the script. -/
theorem firstRequestAfterReset : Obligations.FirstRequestAfterReset := by
  unfold Obligations.FirstRequestAfterReset
  refine ⟨rfl, rfl, rfl, fun w => ?_⟩
  obtain ⟨t, ht⟩ := exists_exec_next (decode w) State.reset
  have hscript : t.script = [] := (exec_host _ _ t ht).1
  rw [State.reset_withFetchWord, step_request _ _ w [] rfl rfl rfl (exec_setScript _ _ t [.request w] ht), ht, ← hscript]

end Sys2Proof.Machine
end

section
/-! Two states that agree on all that R36 lets matter (10_state.md R28, R36): the host sees the same of them, and every edge
leads to two states that agree again. -/

namespace Sys2Proof.Machine

/-- A loop edge is taken in ITER. -/
theorem edgeKind_loop_iter (p : PortIn) (stall : Bool) (st : SeqState) (h : edgeKind p stall st = .loop) : st = .iter := by
  cases hr : p.rst with
  | true => simp [edgeKind_reset p stall st hr] at h
  | false =>
    cases stall with
    | true => simp [edgeKind_stall p st hr] at h
    | false =>
      cases st with
      | iter => rfl
      | idle => cases hv : p.reqValid <;> simp [edgeKind, hr, hv] at h
      | resp => cases hready : p.rspReady <;> simp [edgeKind, hr, hready] at h

section
variable {s t : State}

theorem State.SameVisible.action_eq (h : s.SameVisible t) : s.action = t.action := by
  obtain ⟨-, hscript, -⟩ := h
  rw [State.action, State.action, hscript]

theorem State.SameVisible.ports_eq (h : s.SameVisible t) : s.ports = t.ports := by
  rw [State.ports, State.ports, h.action_eq]

theorem State.SameVisible.stallNow_eq (h : s.SameVisible t) : s.stallNow = t.stallNow := by
  obtain ⟨-, -, hstalls, -⟩ := h
  rw [State.stallNow, State.stallNow, hstalls]

/-- The coming edge falls under the same rule. -/
theorem State.SameVisible.kind_eq (h : s.SameVisible t) : s.kind = t.kind := by
  have hst : s.st = t.st := h.1
  rw [State.kind, State.kind, h.ports_eq, h.stallNow_eq, hst]

/-- In RESP the response registers agree. -/
theorem State.SameVisible.rspRegs_eq (h : s.SameVisible t) (hst : s.st = .resp) : s.rspRegs = t.rspRegs := by
  obtain ⟨-, -, -, -, -, hrsp⟩ := h
  obtain ⟨hrd, hrs, hri⟩ := hrsp hst
  simp only [State.rspRegs, hrd, hrs, hri]

/-- The same request is accepted. -/
theorem State.SameVisible.accepted_eq (h : s.SameVisible t) : s.accepted = t.accepted := by
  rw [State.accepted, State.accepted, h.kind_eq]

/-- A response is delivered exactly at a delivering edge, and is what the response registers hold. -/
theorem State.delivered_eq (s : State) : s.delivered = if s.kind = .deliver then some s.rspRegs else none := by
  unfold State.delivered
  cases s.kind <;> rfl

/-- The same response is delivered. -/
theorem State.SameVisible.delivered_eq (h : s.SameVisible t) : s.delivered = t.delivered := by
  rw [s.delivered_eq, t.delivered_eq, ← h.kind_eq]
  split
  case isTrue hk => rw [h.rspRegs_eq (edgeKind_deliver_resp _ _ _ hk)]
  case isFalse => rfl

/-- The host reads at the same edges. -/
theorem State.SameVisible.samples_eq (h : s.SameVisible t) : s.samples = t.samples := by
  rw [State.samples, State.samples, h.action_eq, h.kind_eq]

/-- The host's read sees the same, or faults alike. -/
theorem State.SameVisible.sampled_eq (h : s.SameVisible t) : s.sampled = t.sampled := by
  have hsamples := h.samples_eq
  have hst : s.st = t.st := h.1
  cases hs : s.samples with
  | false => rw [s.sampled_none hs, t.sampled_none (hsamples ▸ hs)]
  | true =>
    by_cases hresp : s.st = .resp
    · rw [s.sampled_resp hs hresp, t.sampled_resp (hsamples ▸ hs) (hst ▸ hresp)]
      exact congrArg (Except.ok ∘ some) (h.rspRegs_eq hresp)
    · rw [s.sampled_invalid hs hresp, t.sampled_invalid (hsamples ▸ hs) (hst ▸ hresp)]

/-- Going to IDLE needs no register. -/
theorem State.SameVisible.toIdle (h : s.SameVisible t) :
    State.SameVisible { s with st := .idle } { t with st := .idle } := by
  obtain ⟨-, hscript, hstalls, hrecord, -⟩ := h
  exact ⟨rfl, hscript, hstalls, hrecord, fun hi => by simp at hi, fun hr => by simp at hr⟩

/-- An answer writes every register that RESP reads. -/
theorem State.SameVisible.answer (h : s.SameVisible t) (data : Word64) (status : Status) (iters : Word32) :
    (s.answer data status iters).SameVisible (t.answer data status iters) := by
  obtain ⟨-, hscript, hstalls, hrecord, -⟩ := h
  exact ⟨rfl, hscript, hstalls, hrecord, fun hi => by simp at hi, fun _ => ⟨rfl, rfl, rfl⟩⟩

/-- The start of the loop writes every register that ITER reads. -/
theorem State.SameVisible.startLoop (h : s.SameVisible t) (key : Word64) (buckets : Word32) :
    (s.startLoop key buckets).SameVisible (t.startLoop key buckets) := by
  obtain ⟨-, hscript, hstalls, hrecord, -⟩ := h
  exact ⟨rfl, hscript, hstalls, hrecord, fun _ => ⟨rfl, rfl⟩, fun hr => by simp at hr⟩

/-- A loop edge reads the loop registers and `bk`, which agree in ITER. -/
theorem State.SameVisible.loopEdge (h : s.SameVisible t) (hst : s.st = .iter) : s.loopEdge.SameVisible t.loopEdge := by
  obtain ⟨hsts, hscript, hstalls, hrecord, hiter, -⟩ := id h
  obtain ⟨hloop, hbk⟩ := hiter hst
  cases hc : s.loopRegs.continues s.bk with
  | true =>
    rw [s.loopEdge_body hc, t.loopEdge_body (hloop ▸ hbk ▸ hc), ← hloop]
    exact ⟨hsts, hscript, hstalls, hrecord, fun _ => ⟨rfl, hbk⟩, fun hr => by simp [hst] at hr⟩
  | false =>
    have hit : s.it = t.it := congrArg LoopRegs.it hloop
    rw [s.loopEdge_exit hc, t.loopEdge_exit (hloop ▸ hbk ▸ hc), ← hloop, ← hit]
    exact h.answer _ .ok s.it

/-- An accepting edge reads no register. -/
theorem State.SameVisible.exec (h : s.SameVisible t) (i : Instr) :
    ∃ u v, exec i s = .next u ∧ exec i t = .next v ∧ u.SameVisible v := by
  rcases exec_cases i with ⟨data, status, -, hi⟩ | ⟨key, buckets, -, -, hi⟩
  · exact ⟨_, _, hi s, hi t, h.answer data status 0#32⟩
  · exact ⟨_, _, hi s, hi t, h.startLoop key buckets⟩

/-- Every edge of the block leads to two states that agree again. -/
theorem State.SameVisible.blockEdge (h : s.SameVisible t) (p : PortIn) (stall : Bool) :
    ∃ u v, blockEdge p stall s = .next u ∧ blockEdge p stall t = .next v ∧ u.SameVisible v := by
  have hst : s.st = t.st := h.1
  unfold Machine.blockEdge
  rw [← hst]
  cases hk : edgeKind p stall s.st with
  | reset => exact ⟨_, _, rfl, rfl, h.toIdle⟩
  | stall => exact ⟨_, _, rfl, rfl, h⟩
  | quiet => exact ⟨_, _, rfl, rfl, h⟩
  | accept w => exact h.exec (decode w)
  | loop => exact ⟨_, _, rfl, rfl, h.loopEdge (edgeKind_loop_iter p stall s.st hk)⟩
  | deliver => exact ⟨_, _, rfl, rfl, h.toIdle⟩
  | hold => exact ⟨_, _, rfl, rfl, h⟩

/-- The host goes on in the same way. -/
theorem State.SameVisible.hostAfter {u v : State} (h : s.SameVisible t) (huv : u.SameVisible v) (seen : Option Response) :
    (s.hostAfter seen u).SameVisible (t.hostAfter seen v) := by
  have hkind := h.kind_eq
  obtain ⟨-, hscript, hstalls, hrecord, -⟩ := h
  obtain ⟨hst, -, -, -, hregs⟩ := huv
  refine ⟨hst, ?_, ?_, ?_, hregs⟩
  · simp [hkind, hscript]
  · simp [hstalls]
  · simp [hrecord]

/-- A step leads to two states that agree again, or faults alike. -/
theorem State.SameVisible.step (h : s.SameVisible t) :
    (∃ u v, step s = .next u ∧ step t = .next v ∧ u.SameVisible v) ∨
    (∃ f, step s = .fault f ∧ step t = .fault f) := by
  cases hs : s.sampled with
  | error f =>
    refine .inr ⟨f, ?_, ?_⟩
    · rw [Machine.step, hs]
    · rw [Machine.step, ← h.sampled_eq, hs]
  | ok seen =>
    obtain ⟨u, v, hu, hv, huv⟩ := h.blockEdge s.ports s.stallNow
    exact .inl ⟨_, _, step_of_blockEdge s u seen hs hu,
      step_of_blockEdge t v seen (h.sampled_eq ▸ hs) (by rw [← h.ports_eq, ← h.stallNow_eq, hv]), h.hostAfter huv seen⟩

end

/-- Settles O50: agreement is enough for the acceptance, the delivery and the step. -/
theorem stepReadsNoStaleRegister : Obligations.StepReadsNoStaleRegister := by
  unfold Obligations.StepReadsNoStaleRegister
  intro s t h
  exact ⟨h.accepted_eq, h.delivered_eq, h.step⟩

/-- Settles O51, by induction on the number of edges: each accepts and delivers the same and keeps the agreement. -/
theorem staleRegistersNeverShow : Obligations.StaleRegistersNeverShow := by
  unfold Obligations.StaleRegistersNeverShow
  intro n
  induction n with
  | zero => exact fun _ _ _ => ⟨rfl, rfl⟩
  | succ n ih =>
    intro s t h
    rcases h.step with ⟨u, v, hu, hv, huv⟩ | ⟨f, hs, ht⟩
    · obtain ⟨hacc, hdel⟩ := ih u v huv
      simp only [acceptedIn, deliveredIn, hu, hv, h.accepted_eq, h.delivered_eq, hacc, hdel, and_self]
    · simp only [acceptedIn, deliveredIn, hs, ht, and_self]

end Sys2Proof.Machine
end

section
/-! The request inputs outside IDLE (20_memory.md R61): there the kind of an edge does not depend on them. -/

namespace Sys2Proof.Machine

/-- Outside IDLE the kind of an edge comes from `rst`, the draw and `rsp_ready` alone (R33, R34). -/
theorem edgeKind_eq_of_ne_idle (p q : PortIn) (stall : Bool) (st : SeqState) (hst : st ≠ .idle)
    (hrst : p.rst = q.rst) (hready : p.rspReady = q.rspReady) : edgeKind p stall st = edgeKind q stall st := by
  cases st with
  | idle => exact absurd rfl hst
  | iter => simp only [edgeKind, hrst]
  | resp => simp only [edgeKind, hrst, hready]

/-- Settles O26: the block reads the ports through the kind of the edge alone. -/
theorem requestInputsIgnoredOutsideIdle : Obligations.RequestInputsIgnoredOutsideIdle := by
  unfold Obligations.RequestInputsIgnoredOutsideIdle
  intro p q stall s hst hrst hready
  rw [blockEdge, blockEdge, edgeKind_eq_of_ne_idle p q stall s.st hst hrst hready]

end Sys2Proof.Machine
end

section
/-! Responses answer requests in order (20_memory.md R57): what the block owes the host at each state, and how each edge
settles it. -/

namespace Sys2Proof.Machine

/-- The responses that the block owes for the requests it has accepted: none in IDLE, the response of the transaction level
in the loop of an ASSIGN, the response registers in RESP. -/
inductive State.Owes (s : State) : List Response → Prop where
  | idle (hst : s.st = .idle) : s.Owes []
  | iter (key : Word64) (n : Nat) (hst : s.st = .iter) (hbk : 1 ≤ s.bk.toInt) (hloop : s.loopRegs = jumpRegs key n)
      (hgo : ∀ u < n, (jumpRegs key u).continues s.bk = true) : s.Owes [assign key s.bk]
  | resp (hst : s.st = .resp) : s.Owes [s.rspRegs]

/-- At most one request is outstanding (R57). -/
theorem State.Owes.length_le_one {s : State} {owed : List Response} (h : s.Owes owed) : owed.length ≤ 1 := by
  cases h with
  | idle => exact Nat.zero_le 1
  | iter => exact le_rfl
  | resp => exact le_rfl

/-- In IDLE nothing is owed. -/
theorem State.Owes.eq_nil {s : State} {owed : List Response} (h : s.Owes owed) (hst : s.st = .idle) : owed = [] := by
  cases h with
  | idle => rfl
  | iter _ _ hiter => simp [hst] at hiter
  | resp hresp => simp [hst] at hresp

/-- In RESP the response registers are owed. -/
theorem State.Owes.eq_rspRegs {s : State} {owed : List Response} (h : s.Owes owed) (hst : s.st = .resp) :
    owed = [s.rspRegs] := by
  cases h with
  | idle hidle => simp [hst] at hidle
  | iter _ _ hiter => simp [hst] at hiter
  | resp => rfl

/-- The host's side of an edge changes nothing that is owed. -/
theorem State.Owes.hostAfter {u : State} {owed : List Response} (h : u.Owes owed) (s : State) (seen : Option Response) :
    (s.hostAfter seen u).Owes owed := by
  cases h with
  | idle hst => exact .idle hst
  | iter key n hst hbk hloop hgo => exact .iter (s := s.hostAfter seen u) key n hst hbk hloop hgo
  | resp hst => exact .resp (s := s.hostAfter seen u) hst

/-- The loop registers at which the loop condition first fails hold the response of the transaction level (R106, R107). -/
theorem assign_eq_of_jumpRegs_exit (key : Word64) (bk : Word32) (n : Nat) (hbk : 1 ≤ bk.toInt)
    (hgo : ∀ u < n, (jumpRegs key u).continues bk = true) (hstop : (jumpRegs key n).continues bk = false) :
    assign key bk =
      { data := (jumpRegs key n).result, status := Status.ok.code, iters := (jumpRegs key n).it } := by
  obtain ⟨I, hI, hgoI, hstopI⟩ := exists_loop_exit key bk hbk
  obtain rfl : n = I := by
    rcases Nat.lt_trichotomy n I with hlt | heq | hgt
    · simp [hgoI n hlt] at hstop
    · exact heq
    · simp [hgo I hgt] at hstopI
  rw [assign_eq_of_loop_exit key bk n hbk hI hgo hstop, jumpRegs_it]

/-- A loop edge owes what was owed: a body is one more of the same loop, and the exit writes the loop's response. -/
theorem State.Owes.loopEdge {s : State} {owed : List Response} (h : s.Owes owed) (hst : s.st = .iter) :
    s.loopEdge.Owes owed := by
  cases h with
  | idle hidle => simp [hst] at hidle
  | resp hresp => simp [hst] at hresp
  | iter key n _ hbk hloop hgo =>
    cases hc : s.loopRegs.continues s.bk with
    | true =>
      rw [s.loopEdge_body hc]
      refine .iter (s := s.setLoopRegs s.loopRegs.body) key (n + 1) hst hbk ?_ fun u hu => ?_
      · rw [State.loopRegs_setLoopRegs, hloop, jumpRegs]
      · rcases Nat.lt_succ_iff_lt_or_eq.mp hu with hlt | rfl
        · exact hgo u hlt
        · exact hloop ▸ hc
    | false =>
      have hit : s.it = (jumpRegs key n).it := congrArg LoopRegs.it hloop
      rw [s.loopEdge_exit hc, assign_eq_of_jumpRegs_exit key s.bk n hbk hgo (hloop ▸ hc), hloop, hit]
      exact .resp (State.answer_st s _ .ok _)

/-- An accepted operation owes its response of the transaction level (R32). -/
theorem owes_of_exec (i : Instr) (s t : State) (h : exec i s = .next t) : t.Owes [respond i] := by
  rcases exec_respond_cases i s with ⟨data, status, hi, -, hresp⟩ | ⟨key, buckets, rfl, hbk, hi, -⟩
  · obtain rfl := Host.Outcome.next.inj (h.symm.trans hi)
    rw [hresp]
    exact .resp (State.answer_st s data status 0#32)
  · obtain rfl := Host.Outcome.next.inj (h.symm.trans hi)
    exact .iter (s := s.startLoop key buckets) key 0 rfl hbk rfl fun u hu => absurd hu (Nat.not_lt_zero u)

/-- An edge that is no reset edge keeps the account: what was owed and what it accepts is what it delivers and what is
owed after it (R57, R211). -/
theorem State.Owes.blockEdge {s u : State} {owed : List Response} (h : s.Owes owed) (hreset : s.kind ≠ .reset)
    (hedge : blockEdge s.ports s.stallNow s = .next u) :
    ∃ owed', u.Owes owed' ∧ owed ++ s.accepted.toList.map respond = s.delivered.toList ++ owed' := by
  rw [Machine.blockEdge, ← State.kind] at hedge
  rw [State.accepted, s.delivered_eq]
  cases hk : s.kind with
  | reset => exact absurd hk hreset
  | stall | quiet | hold =>
    rw [hk] at hedge
    obtain rfl := Host.Outcome.next.inj hedge
    exact ⟨owed, h, by simp⟩
  | accept w =>
    rw [hk] at hedge
    obtain ⟨-, -, hst, -⟩ := (edgeKind_accept_iff s.ports s.stallNow s.st w).mp hk
    exact ⟨[respond (decode w)], owes_of_exec _ s u hedge, by simp [h.eq_nil hst]⟩
  | loop =>
    rw [hk] at hedge
    obtain rfl := Host.Outcome.next.inj hedge
    exact ⟨owed, h.loopEdge (edgeKind_loop_iter _ _ _ hk), by simp⟩
  | deliver =>
    rw [hk] at hedge
    obtain rfl := Host.Outcome.next.inj hedge
    exact ⟨[], .idle s.deliverEdge_st, by simp [h.eq_rspRegs (edgeKind_deliver_resp _ _ _ hk)]⟩

/-- A step without reset keeps the account. -/
theorem State.Owes.step {s t : State} {owed : List Response} (h : s.Owes owed) (hreset : s.kind ≠ .reset)
    (hstep : step s = .next t) :
    ∃ owed', t.Owes owed' ∧ owed ++ s.accepted.toList.map respond = s.delivered.toList ++ owed' := by
  obtain ⟨seen, u, -, hedge, rfl⟩ := (step_next_iff s t).mp hstep
  obtain ⟨owed', hu, haccount⟩ := h.blockEdge hreset hedge
  exact ⟨owed', hu.hostAfter s seen, haccount⟩

/-- Over any number of edges without reset, what was owed and the requests accepted are answered by the responses
delivered, in order, and what is owed at the end. -/
theorem State.Owes.responses_in_order (n : Nat) {s : State} {owed : List Response} (h : s.Owes owed)
    (hreset : noResetIn n s = true) :
    ∃ pending : List Response,
      owed ++ (acceptedIn n s).map respond = deliveredIn n s ++ pending ∧ pending.length ≤ 1 := by
  induction n generalizing s owed with
  | zero => exact ⟨owed, List.append_nil owed, h.length_le_one⟩
  | succ n ih =>
    cases hstep : Machine.step s with
    | next t =>
      simp only [noResetIn, hstep, Bool.and_eq_true, bne_iff_ne] at hreset
      obtain ⟨hkind, hrest⟩ := hreset
      obtain ⟨owed', ht, haccount⟩ := h.step hkind hstep
      obtain ⟨pending, hanswers, hlen⟩ := ih ht hrest
      refine ⟨pending, ?_, hlen⟩
      simp only [acceptedIn, deliveredIn, hstep]
      rw [List.map_append, ← List.append_assoc, haccount, List.append_assoc, hanswers, List.append_assoc]
    | fault f => exact ⟨owed, by simp [acceptedIn, deliveredIn, hstep], h.length_le_one⟩
    | refused r => exact ⟨owed, by simp [acceptedIn, deliveredIn, hstep], h.length_le_one⟩

/-- Settles O49: IDLE owes nothing, and every edge without reset keeps the account. -/
theorem responsesAnswerRequestsInOrder : Obligations.ResponsesAnswerRequestsInOrder := by
  unfold Obligations.ResponsesAnswerRequestsInOrder
  intro n s hst hreset
  exact (State.Owes.idle hst).responses_in_order n hreset

end Sys2Proof.Machine
end

section
/-! The decoder on a word given by its fields, and the two ways round of decoding and encoding (30_encoding.md R70, R72,
R73). -/

namespace Sys2Proof.Machine

/-! ### What the decoder reads from each opcode (R72, R73) -/

@[simp] theorem decode_reqWord_assign (a : Word64) (b : Word32) : decode (reqWord 0b000#3 a b) = .assign a b := by
  simp [decode]
@[simp] theorem decode_reqWord_lcg (a : Word64) (b : Word32) : decode (reqWord 0b001#3 a b) = .lcg a := by
  simp [decode]
@[simp] theorem decode_reqWord_ushr33 (a : Word64) (b : Word32) : decode (reqWord 0b010#3 a b) = .ushr33 a := by
  simp [decode]
@[simp] theorem decode_reqWord_recip (a : Word64) (b : Word32) :
    decode (reqWord 0b011#3 a b) = .recip (a.extractLsb' 0 31) := by
  simp [decode]
@[simp] theorem decode_reqWord_floordiv (a : Word64) (b : Word32) :
    decode (reqWord 0b100#3 a b) = .floordiv (a.extractLsb' 0 32) (b.extractLsb' 0 31) := by
  simp [decode]
@[simp] theorem decode_reqWord_reserved101 (a : Word64) (b : Word32) : decode (reqWord 0b101#3 a b) = .reserved101 := by
  simp [decode]
@[simp] theorem decode_reqWord_reserved110 (a : Word64) (b : Word32) : decode (reqWord 0b110#3 a b) = .reserved110 := by
  simp [decode]
@[simp] theorem decode_reqWord_reserved111 (a : Word64) (b : Word32) : decode (reqWord 0b111#3 a b) = .reserved111 := by
  simp [decode]

/-! ### Decoding what was encoded -/

/-- A field read back from the low bits of the wider operand it was put in. -/
theorem extractLsb'_zero_setWidth {v w : Nat} (h : v ≤ w) (x : BitVec v) : (x.setWidth w).extractLsb' 0 v = x := by
  rw [← BitVec.setWidth_eq_extractLsb' h, BitVec.setWidth_setWidth_of_le x h, BitVec.setWidth_eq]

/-- Decoding the word of an operation gives it back (R72, R73). -/
theorem decode_encode (i : Instr) : decode (encode i) = i := by
  cases i with
  | assign key buckets => exact decode_reqWord_assign key buckets
  | lcg x => exact decode_reqWord_lcg x 0#32
  | ushr33 x => exact decode_reqWord_ushr33 x 0#32
  | recip s =>
    calc decode (encode (.recip s)) = .recip ((s.setWidth 64).extractLsb' 0 31) := decode_reqWord_recip _ _
      _ = .recip s := by rw [extractLsb'_zero_setWidth (by decide)]
  | floordiv n s =>
    calc decode (encode (.floordiv n s))
        = .floordiv ((n.setWidth 64).extractLsb' 0 32) ((s.setWidth 32).extractLsb' 0 31) := decode_reqWord_floordiv _ _
      _ = .floordiv n s := by rw [extractLsb'_zero_setWidth (by decide), extractLsb'_zero_setWidth (by decide)]
  | reserved101 => exact decode_reqWord_reserved101 _ _
  | reserved110 => exact decode_reqWord_reserved110 _ _
  | reserved111 => exact decode_reqWord_reserved111 _ _

/-- Settles O1: operation by operation, each operand comes back from the field it was put in. -/
theorem decodeUndoesEncode : Obligations.DecodeUndoesEncode := by
  unfold Obligations.DecodeUndoesEncode
  exact fun i _ => decode_encode i

/-! ### Encoding what was decoded -/

/-- Keeping the low `n` bits by a mask is reading them as a field and widening it again. -/
theorem and_lowMask {w : Nat} (n : Nat) (hn : n ≤ w) (x : BitVec w) :
    x &&& BitVec.ofNat w (2 ^ n - 1) = (x.extractLsb' 0 n).setWidth w := by
  apply BitVec.eq_of_toNat_eq
  have hmask : 2 ^ n - 1 < 2 ^ w := lt_of_lt_of_le (Nat.sub_lt (by positivity) one_pos) (Nat.pow_le_pow_right two_pos hn)
  have hfield : x.toNat % 2 ^ n < 2 ^ w :=
    (Nat.mod_lt _ (by positivity)).trans_le (Nat.pow_le_pow_right two_pos hn)
  simp [Nat.mod_eq_of_lt hmask, Nat.and_two_pow_sub_one_eq_mod, Nat.mod_eq_of_lt hfield]

/-- The 3-bit opcodes of R72's table. -/
theorem opBits_cases (op : OpBits) :
    op = 0b000#3 ∨ op = 0b001#3 ∨ op = 0b010#3 ∨ op = 0b011#3 ∨ op = 0b100#3 ∨ op = 0b101#3 ∨ op = 0b110#3 ∨
      op = 0b111#3 := by
  revert op
  decide

/-- Encoding what a word of these fields decodes to keeps the bits that the opcode uses, and no other (R73). -/
theorem encode_decode_reqWord (op : OpBits) (a : Word64) (b : Word32) :
    encode (decode (reqWord op a b)) = reqWord op a b &&& usedBits op := by
  have ha : a &&& 0xFFFFFFFFFFFFFFFF#64 = a := BitVec.and_allOnes
  have hb : b &&& 0xFFFFFFFF#32 = b := BitVec.and_allOnes
  have ha31 : a &&& 0x7FFFFFFF#64 = (a.extractLsb' 0 31).setWidth 64 := and_lowMask 31 (by decide) a
  have ha32 : a &&& 0xFFFFFFFF#64 = (a.extractLsb' 0 32).setWidth 64 := and_lowMask 32 (by decide) a
  have hb31 : b &&& 0x7FFFFFFF#32 = (b.extractLsb' 0 31).setWidth 32 := and_lowMask 31 (by decide) b
  rcases opBits_cases op with rfl | rfl | rfl | rfl | rfl | rfl | rfl | rfl
  · simp [usedBits, reqWord_and, encode, Instr.opcode, ha, hb]
  · simp [usedBits, reqWord_and, encode, Instr.opcode, ha]
  · simp [usedBits, reqWord_and, encode, Instr.opcode, ha]
  · simp [usedBits, reqWord_and, encode, Instr.opcode, ha31]
  · simp [usedBits, reqWord_and, encode, Instr.opcode, ha32, hb31]
  · simp [usedBits, reqWord_and, encode, Instr.opcode]
  · simp [usedBits, reqWord_and, encode, Instr.opcode]
  · simp [usedBits, reqWord_and, encode, Instr.opcode]

/-- Settles O2: a word is its three fields, and each opcode keeps the bits of them that it uses. -/
theorem encodeDecodeClearsIgnoredBits : Obligations.EncodeDecodeClearsIgnoredBits := by
  unfold Obligations.EncodeDecodeClearsIgnoredBits
  intro w
  calc encode (decode w) = encode (decode (reqWord (opField w) (aField w) (bField w))) := by rw [reqWord_fields]
    _ = reqWord (opField w) (aField w) (bField w) &&& usedBits (opField w) := encode_decode_reqWord _ _ _
    _ = w &&& usedBits (opField w) := by rw [reqWord_fields]

/-! ### Ignored bits at an edge (R74) -/

/-- An edge in IDLE (R31, R32, R200, R211). -/
theorem blockEdge_idle (p : PortIn) (stall : Bool) (s : State) (hst : s.st = .idle) :
    blockEdge p stall s =
      if p.rst then .next s.resetEdge
      else if stall then .next s
      else if p.reqValid then exec (decode p.word) s
      else .next s := by
  rw [blockEdge, hst, edgeKind]
  split_ifs <;> rfl

/-- An edge sees of its request ports the decoded operation alone. -/
theorem blockEdge_congr_decode (p q : PortIn) (stall : Bool) (s : State) (hrst : p.rst = q.rst)
    (hvalid : p.reqValid = q.reqValid) (hready : p.rspReady = q.rspReady) (hword : decode p.word = decode q.word) :
    blockEdge p stall s = blockEdge q stall s := by
  by_cases hst : s.st = .idle
  · rw [blockEdge_idle p stall s hst, blockEdge_idle q stall s hst, hrst, hvalid, hword]
  · rw [blockEdge, blockEdge, edgeKind_eq_of_ne_idle p q stall s.st hst hrst hready]

/-- The block answers a next state at every edge (R180). -/
theorem exists_blockEdge_next (p : PortIn) (stall : Bool) (s : State) : ∃ t, blockEdge p stall s = .next t := by
  rcases blockEdge_cases p stall s with
    ⟨-, h⟩ | ⟨-, -, h⟩ | ⟨-, -, -, -, h⟩ | ⟨-, -, -, -, h⟩ | ⟨-, -, -, h⟩ | ⟨-, -, -, -, h⟩ | ⟨-, -, -, -, h⟩
  case inr.inr.inr.inl => exact h ▸ exists_exec_next (decode p.word) s
  all_goals exact ⟨_, h⟩

/-- Settles O3: the word without its ignored bits is the encoding of the operation, so it decodes to the same one. -/
theorem ignoredBitsHaveNoEffect : Obligations.IgnoredBitsHaveNoEffect := by
  unfold Obligations.IgnoredBitsHaveNoEffect
  intro p stall s w
  have hw : w = encode (decode p.word) := (encode_decode_reqWord p.reqOp p.reqA p.reqB).symm
  refine ⟨blockEdge_congr_decode p _ stall s rfl rfl rfl ?_, exists_blockEdge_next p stall s⟩
  calc decode p.word = decode w := by rw [hw, decode_encode]
    _ = decode (reqWord (opField w) (aField w) (bField w)) := by rw [reqWord_fields]

end Sys2Proof.Machine
end

section
/-! The response word and the assembler's lines (30_encoding.md R71, R76, R78), and a word for each opcode. -/

namespace Sys2Proof.Machine

/-! ### The response word (R71, R76) -/

@[simp] theorem Response.word_status (r : Response) : r.word.extractLsb' 96 2 = r.status := by
  rw [Response.word, BitVec.append_assoc]
  exact BitVec.extractLsb'_append_eq_left
@[simp] theorem Response.word_iters (r : Response) : r.word.extractLsb' 64 32 = r.iters := by
  rw [Response.word, BitVec.extractLsb'_append_eq_of_le (le_refl 64)]
  exact BitVec.extractLsb'_append_eq_right
@[simp] theorem Response.word_data (r : Response) : r.word.extractLsb' 0 64 = r.data := by
  rw [Response.word]
  exact BitVec.extractLsb'_append_eq_right

/-- Code 11 names no status, and every other code names the status it is the code of (R76). -/
theorem statusOfCode_cases (c : StatusBits) :
    (c = 0b11#2 ∧ statusOfCode c = none) ∨ (c ≠ 0b11#2 ∧ ∃ status, statusOfCode c = some status ∧ status.code = c) := by
  revert c
  decide

/-- Settles O5: the three fields come back, and the name of the status gives back its code. -/
theorem responseWordReadsBack : Obligations.ResponseWordReadsBack := by
  unfold Obligations.ResponseWordReadsBack
  intro r
  rcases statusOfCode_cases r.status with ⟨h11, hnone⟩ | ⟨hne, status, hsome, hcode⟩
  · exact ⟨fun h => absurd h11 h, fun _ => by simp [decodeRsp, hnone]⟩
  · exact ⟨fun _ => by simp [decodeRsp, hsome, hcode], fun h => absurd h hne⟩

/-! ### The assembler (R78) -/

/-- A line in range whose row is the encoding of `i` assembles to a word of `i` with every ignored bit 0. -/
theorem exists_word_of_wellFormed (line : AsmLine) (i : Instr) (hrow : asmWord line = encode i)
    (hwf : line.wellFormed = true) : ∃ w, assembleLine line = .ok w ∧ encode (decode w) = w ∧ decode w = i := by
  refine ⟨encode i, ?_, by rw [decode_encode], decode_encode i⟩
  rw [assembleLine_of_wellFormed line hwf, hrow]

/-- A row of R78's table: what the line gives in its range, and the error outside. -/
theorem row_of_range (line : AsmLine) (range : Prop) [Decidable range] (P : Prop) (hrange : line.wellFormed = true ↔ range)
    (hP : line.wellFormed = true → P) : if range then P else assembleLine line = .error .operandOutOfRange := by
  split
  case isTrue h => exact hP (hrange.mpr h)
  case isFalse h => exact assembleLine_of_not_wellFormed line fun hwf => h (hrange.mp hwf)

theorem wellFormed_assign_iff (key buckets : Int) :
    (AsmLine.assign key buckets).wellFormed = true ↔
      -2 ^ 63 ≤ key ∧ key < 2 ^ 64 ∧ -2 ^ 31 ≤ buckets ∧ buckets < 2 ^ 32 := by
  simp [AsmLine.wellFormed, and_assoc]

theorem wellFormed_recip_iff (v : Int) : (AsmLine.recip v).wellFormed = true ↔ 0 ≤ v ∧ v < 2 ^ 31 := by
  simp [AsmLine.wellFormed]

theorem wellFormed_floordiv_iff (n v : Int) :
    (AsmLine.floordiv n v).wellFormed = true ↔ 0 ≤ n ∧ n < 2 ^ 32 ∧ 0 ≤ v ∧ v < 2 ^ 31 := by
  simp [AsmLine.wellFormed, and_assoc]

theorem wellFormed_req_iff (op a b : Int) : (AsmLine.req op a b).wellFormed = true ↔ 0 ≤ op ∧ op < 8 := by
  simp [AsmLine.wellFormed]

/-- An integer within `w` bits is the value of its bit pattern. -/
theorem toNat_ofInt_of_lt (w : Nat) (x : Int) (h0 : 0 ≤ x) (h : x < 2 ^ w) : (BitVec.ofInt w x).toNat = x.toNat := by
  rw [BitVec.toNat_ofInt, Int.emod_eq_of_lt h0 (by exact_mod_cast h)]

/-- Settles O6: each row is the encoding of its operation, and `REQ` gives its three fields. -/
theorem assemblerLineGivesItsRequest : Obligations.AssemblerLineGivesItsRequest := by
  unfold Obligations.AssemblerLineGivesItsRequest
  refine ⟨fun key buckets => ?assign, fun x => exists_word_of_wellFormed _ _ rfl rfl,
    fun x => exists_word_of_wellFormed _ _ rfl rfl, fun v => ?recip, fun n v => ?floordiv, fun op a b => ?req⟩
  case assign =>
    exact row_of_range _ _ _ (wellFormed_assign_iff key buckets) fun hwf => exists_word_of_wellFormed _ _ rfl hwf
  case recip =>
    refine row_of_range _ _ _ (wellFormed_recip_iff v) fun hwf => ?_
    obtain ⟨hv0, hv⟩ := (wellFormed_recip_iff v).mp hwf
    obtain ⟨w, hasm, hzero, hdec⟩ := exists_word_of_wellFormed _ (.recip (BitVec.ofInt 31 v)) rfl hwf
    exact ⟨w, hasm, hzero, hdec, toNat_ofInt_of_lt 31 v hv0 hv⟩
  case floordiv =>
    refine row_of_range _ _ _ (wellFormed_floordiv_iff n v) fun hwf => ?_
    obtain ⟨hn0, hn, hv0, hv⟩ := (wellFormed_floordiv_iff n v).mp hwf
    obtain ⟨w, hasm, hzero, hdec⟩ :=
      exists_word_of_wellFormed _ (.floordiv (BitVec.ofInt 32 n) (BitVec.ofInt 31 v)) rfl hwf
    exact ⟨w, hasm, hzero, hdec, toNat_ofInt_of_lt 32 n hn0 hn, toNat_ofInt_of_lt 31 v hv0 hv⟩
  case req =>
    refine row_of_range _ _ _ (wellFormed_req_iff op a b) fun hwf => ?_
    obtain ⟨hop0, hop⟩ := (wellFormed_req_iff op a b).mp hwf
    refine ⟨_, assembleLine_of_wellFormed _ hwf, ?_, aField_reqWord _ _ _, bField_reqWord _ _ _⟩
    rw [asmWord, opField_reqWord, toNat_ofInt_of_lt 3 op hop0 hop]

/-! ### A word for each opcode -/

/-- A number below 2^99 is decoded as the request word of its bits (R70, R77). -/
theorem decodeTableWord_of_lt (w : Nat) (h : w < 2 ^ 99) : decodeTableWord 104 w = some (decode (BitVec.ofNat 99 w)) := by
  have hmod : w % 2 ^ 104 = w := Nat.mod_eq_of_lt (h.trans (by norm_num))
  have hrange : wordInRange w = true := decide_eq_true h
  rw [decodeTableWord, hmod, decodeNat, if_pos hrange]

/-- Settles O4: each word with the operation its fields spell out, and bit 99 refused (log 13). -/
theorem specWordsDecode : Obligations.SpecWordsDecode := by
  unfold Obligations.SpecWordsDecode
  refine ⟨?assign, ?lcg, ?ushr33, ?recip, ?floordiv, ?reserved101, ?reserved110, ?reserved111, ?bit99⟩
  case bit99 => rfl
  all_goals
    rw [decodeTableWord_of_lt _ (by norm_num)]
    decide

end Sys2Proof.Machine
end

section
/-! The host's actions that take several edges (30_encoding.md R78): a request line and WAIT stay until they are done, and
TICK counts its edges. -/

namespace Sys2Proof.Machine

/-! ### A request line and WAIT -/

/-- A request is accepted at exactly the edges of the kind `accept`. -/
theorem State.accepted_eq_some (s : State) (i : Instr) (h : s.accepted = some i) : ∃ v, s.kind = .accept v := by
  unfold State.accepted at h
  cases hk : s.kind with
  | accept v => exact ⟨v, rfl⟩
  | _ => rw [hk] at h; cases h

theorem State.accepted_eq_none (s : State) (h : s.accepted = none) (v : ReqWord) : s.kind ≠ .accept v := by
  intro hk
  rw [State.accepted, hk] at h
  cases h

/-- A response is delivered at exactly the edges of the kind `deliver`. -/
theorem State.delivered_eq_none_iff (s : State) : s.delivered = none ↔ s.kind ≠ .deliver := by
  rw [s.delivered_eq]
  split <;> simp [*]

/-- Settles O30: the line is in force until the kind of the edge is the one it waits for. -/
theorem requestAndWaitHoldUntilDone : Obligations.RequestAndWaitHoldUntilDone := by
  unfold Obligations.RequestAndWaitHoldUntilDone
  intro s t w rest hstep
  obtain ⟨seen, u, -, -, rfl⟩ := (step_next_iff s t).mp hstep
  refine ⟨fun hscript => ?request, fun hscript => ?wait⟩
  case request =>
    have hports : s.ports = PortIn.offer w := by rw [State.ports, s.action_eq _ rest hscript (by simp)]; rfl
    refine ⟨by rw [hports, PortIn.offer_reqValid], by rw [hports, PortIn.offer_word], fun hacc => ?_, fun hacc => ?_⟩
    · obtain ⟨v, hkind⟩ := s.accepted_eq_some _ hacc
      rw [State.hostAfter_script, hscript, hkind, scriptAfter_request_accept]
    · rw [State.hostAfter_script, hscript, scriptAfter_request_other _ _ _ (s.accepted_eq_none hacc)]
  case wait =>
    have hports : s.ports = HostAction.wait.ports := by rw [State.ports, s.action_eq _ rest hscript (by simp)]
    refine ⟨by rw [hports, HostAction.ports_wait_rspReady], fun hdel => ?_, fun hdel => ?_⟩
    · have hkind : s.kind = .deliver := not_not.mp (mt s.delivered_eq_none_iff.mpr hdel)
      rw [State.hostAfter_script, hscript, hkind, scriptAfter_wait_deliver]
    · rw [State.hostAfter_script, hscript, scriptAfter_wait_other _ _ (s.delivered_eq_none_iff.mp hdel)]

/-! ### The block's edge beside the host's fields -/

/-- The state with another script and other draws. -/
def State.setHost (s : State) (script : List HostAction) (stalls : List Bool) : State :=
  { s with script := script, stalls := stalls }

/-- An operation looks at neither the script nor the draws. -/
theorem exec_setHost (i : Instr) (s t : State) (l : List HostAction) (d : List Bool) (h : exec i s = .next t) :
    exec i (s.setHost l d) = .next (t.setHost l d) := by
  rcases exec_cases i with ⟨data, status, -, hi⟩ | ⟨key, buckets, -, -, hi⟩
  all_goals
    rw [hi] at h ⊢
    cases h
    rfl

/-- Nor does an edge in ITER. -/
theorem State.loopEdge_setHost (s : State) (l : List HostAction) (d : List Bool) :
    (s.setHost l d).loopEdge = s.loopEdge.setHost l d := by
  cases hc : s.loopRegs.continues s.bk with
  | true => rw [s.loopEdge_body hc, State.loopEdge_body (s.setHost l d) hc]; rfl
  | false => rw [s.loopEdge_exit hc, State.loopEdge_exit (s.setHost l d) hc]; rfl

/-- Nor does any edge of the block. -/
theorem blockEdge_setHost (p : PortIn) (stall : Bool) (s t : State) (l : List HostAction) (d : List Bool)
    (h : blockEdge p stall s = .next t) : blockEdge p stall (s.setHost l d) = .next (t.setHost l d) := by
  have hst : (s.setHost l d).st = s.st := rfl
  rw [blockEdge] at h ⊢
  rw [hst]
  cases hk : edgeKind p stall s.st with
  | accept w =>
    rw [hk] at h
    exact exec_setHost _ s t l d h
  | loop =>
    rw [hk] at h
    cases h
    exact congrArg _ (s.loopEdge_setHost l d)
  | _ =>
    rw [hk] at h
    cases h
    rfl

/-- An edge of the block keeps the record. -/
theorem blockEdge_record (p : PortIn) (stall : Bool) (s t : State) (h : blockEdge p stall s = .next t) :
    t.record = s.record := by
  rcases blockEdge_next_cases p stall s t h with rfl | rfl | ⟨-, -, -, -, hexec⟩ | ⟨-, -, -, rfl⟩
  · rfl
  · rfl
  · exact (exec_host _ s t hexec).2.2
  · exact s.loopEdge_host.2.2

/-- The block answers a next state after any sequence of edges. -/
theorem exists_blockRun_next (es : List EdgeIn) (s : State) : ∃ t, blockRun es s = .next t := by
  induction es generalizing s with
  | nil => exact ⟨s, rfl⟩
  | cons e es ih =>
    obtain ⟨u, hu⟩ := exists_blockEdge_next e.ports e.stall s
    rw [blockRun_cons e es s u hu]
    exact ih u

/-- A run of the block looks at neither the script nor the draws in its state. -/
theorem blockRun_setHost (es : List EdgeIn) (s t : State) (l : List HostAction) (d : List Bool)
    (h : blockRun es s = .next t) : blockRun es (s.setHost l d) = .next (t.setHost l d) := by
  induction es generalizing s with
  | nil => cases h; rfl
  | cons e es ih =>
    obtain ⟨u, hu⟩ := exists_blockEdge_next e.ports e.stall s
    rw [blockRun_cons e es s u hu] at h
    rw [blockRun_cons e es _ _ (blockEdge_setHost _ _ s u l d hu)]
    exact ih u h

/-! ### TICK -/

/-- The block's side of `TICK n`: `n` edges with every input low, at the coming draws. -/
def tickEdges (n : Nat) (stalls : List Bool) : List EdgeIn :=
  (List.range n).map fun i => ⟨PortIn.quiet, stalls.getD i false⟩

theorem tickEdges_succ (n : Nat) (stalls : List Bool) :
    tickEdges (n + 1) stalls = ⟨PortIn.quiet, stalls.headD false⟩ :: tickEdges n stalls.tail := by
  cases stalls <;> simp [tickEdges, List.range_succ_eq_map, Function.comp_def]

/-- One edge of TICK. -/
theorem step_tick (n : Nat) (s t : State) (rest : List HostAction) (hscript : s.script = .tick (n + 1) :: rest)
    (hedge : blockEdge PortIn.quiet s.stallNow s = .next t) :
    step s = .next (t.setHost (if n = 0 then rest else .tick n :: rest) s.stalls.tail) := by
  have haction : s.action = .tick (n + 1) := s.action_eq _ rest hscript (by simp)
  have hsampled : s.sampled = .ok none := s.sampled_none (by rw [State.samples, haction])
  have hports : s.ports = PortIn.quiet := by rw [State.ports, haction, HostAction.ports_tick]
  have hafter : scriptAfter s.kind s.script = if n = 0 then rest else .tick n :: rest := by
    rw [hscript]
    cases n <;> rfl
  rw [step_of_blockEdge s t none hsampled (hports ▸ hedge), State.hostAfter, hafter, ← blockEdge_record _ _ s t hedge]
  simp [State.setHost]

/-- All edges of TICK: the block's run beside the host's count. -/
theorem run_tick (n : Nat) (s t : State) (rest : List HostAction) (hscript : s.script = .tick (n + 1) :: rest)
    (hrun : blockRun (tickEdges (n + 1) s.stalls) s = .next t) :
    Host.Core.run Sys2Proof.core (n + 1) s = .next (t.setHost rest (s.stalls.drop (n + 1))) := by
  induction n generalizing s t with
  | zero =>
    obtain ⟨u, hu⟩ := exists_blockEdge_next PortIn.quiet s.stallNow s
    rw [tickEdges_succ, blockRun_cons _ _ s u hu] at hrun
    cases hrun
    rw [run_step 0 s _ (step_tick 0 s t rest hscript hu), List.drop_one]
    rfl
  | succ n ih =>
    obtain ⟨u, hu⟩ := exists_blockEdge_next PortIn.quiet s.stallNow s
    rw [tickEdges_succ, blockRun_cons _ _ s u hu] at hrun
    rw [run_step (n + 1) s _ (step_tick (n + 1) s u rest hscript hu), ← List.drop_tail]
    exact ih (u.setHost _ _) (t.setHost (.tick (n + 1) :: rest) s.stalls.tail) rfl (blockRun_setHost _ u t _ _ hrun)

/-- Settles O52: one edge of TICK, and then all of them. -/
theorem tickCountsDownInAnyState : Obligations.TickCountsDownInAnyState := by
  unfold Obligations.TickCountsDownInAnyState
  intro n s rest hscript
  obtain ⟨u, hu⟩ := exists_blockEdge_next PortIn.quiet s.stallNow s
  obtain ⟨t, ht⟩ := exists_blockRun_next (tickEdges (n + 1) s.stalls) s
  exact ⟨⟨u, hu, step_tick n s u rest hscript hu⟩, t, ht, run_tick n s t rest hscript ht⟩

/-- In IDLE an edge of TICK changes nothing (R31, R211). -/
theorem blockRun_tickEdges_idle (n : Nat) (stalls : List Bool) (s : State) (hst : s.st = .idle) :
    blockRun (tickEdges n stalls) s = .next s := by
  induction n generalizing stalls with
  | zero => rfl
  | succ n ih =>
    rw [tickEdges_succ, blockRun_cons _ _ s s (idleWithoutRequestChangesNothing _ _ s hst rfl rfl)]
    exact ih stalls.tail

/-- Settles O29: the block's run of TICK leaves IDLE as it is. -/
theorem tickLetsEdgesPass : Obligations.TickLetsEdgesPass := by
  unfold Obligations.TickLetsEdgesPass
  intro n s rest hn hst hscript
  obtain ⟨m, rfl⟩ := Nat.exists_eq_add_of_le' hn
  exact run_tick m s s rest hscript (blockRun_tickEdges_idle (m + 1) s.stalls s hst)

end Sys2Proof.Machine
end

section
/-! ASSIGN at its accepting edge (40_assign.md R102, R103). -/

namespace Sys2Proof.Machine

/-- R102's test holds exactly when there is no bucket. -/
theorem clampTest_eq_true_iff (buckets : Word32) : clampTest buckets = true ↔ buckets.toInt ≤ 0 := by
  rw [clampTest, decide_eq_true_iff]

/-- Without a bucket, ASSIGN answers at its accepting edge (R102). -/
theorem exec_assign_clamped (key : Word64) (buckets : Word32) (s : State) (h : buckets.toInt ≤ 0) :
    exec (.assign key buckets) s = .next (s.answer 0#64 .clamped 0#32) := by
  rw [exec_assign, if_pos ((clampTest_eq_true_iff buckets).mpr h)]

/-- With a bucket, ASSIGN starts its loop at its accepting edge (R103). -/
theorem exec_assign_start (key : Word64) (buckets : Word32) (s : State) (h : 1 ≤ buckets.toInt) :
    exec (.assign key buckets) s = .next (s.startLoop key buckets) := by
  rw [exec_assign, (clampTest_eq_false_iff buckets).mpr h]
  rfl

/-- The transaction level without a bucket (R102). -/
theorem assign_clamped (key : Word64) (buckets : Word32) (h : buckets.toInt ≤ 0) :
    assign key buckets = { data := 0#64, status := Status.clamped.code, iters := 0#32 } := by
  rw [assign, if_pos ((clampTest_eq_true_iff buckets).mpr h)]

/-- Settles O12: the clamped response at both levels. -/
theorem assignClampsNonPositiveBuckets : Obligations.AssignClampsNonPositiveBuckets := by
  unfold Obligations.AssignClampsNonPositiveBuckets
  exact fun key buckets s h => ⟨exec_assign_clamped key buckets s h, assign_clamped key buckets h⟩

/-- Settles O13: the start of the loop writes the loop registers, the bucket count and `st`. -/
theorem assignStartsTheLoop : Obligations.AssignStartsTheLoop := by
  unfold Obligations.AssignStartsTheLoop
  exact fun key buckets s h => exec_assign_start key buckets s h

end Sys2Proof.Machine
end

section
/-! The loop of ASSIGN as a whole (40_assign.md R106, R108-R111): its index in range, and its result a bucket. -/

namespace Sys2Proof.Machine

/-- At the start of the loop the condition holds, if there is a bucket (R103, R104). -/
theorem jumpRegs_zero_continues (key : Word64) (bk : Word32) (hbk : 1 ≤ bk.toInt) :
    (jumpRegs key 0).continues bk = true := by
  rw [LoopRegs.continues_iff]
  exact Int.lt_of_add_one_le hbk

/-- After bodies that the loop condition allowed, the index has the same value signed and unsigned. -/
theorem jumpRegs_j_toInt (key : Word64) (bk : Word32) (t : Nat) (h : ∀ u < t, (jumpRegs key u).continues bk = true) :
    (jumpRegs key t).j.toInt = (jumpRegs key t).j.toNat :=
  toInt_eq_toNat_of_nonneg _ ((Int.natCast_nonneg t).trans (le_jumpRegs_j key bk t h))

/-- A word below a 32-bit bucket count is its own low half (R106). -/
theorem LoopRegs.result_eq_b (l : LoopRegs) (bk : Word32) (h0 : 0 ≤ l.b.toInt) (h : l.b.toInt < bk.toInt) :
    l.result = l.b := by
  have hbk := @BitVec.toInt_lt 32 bk
  have hnat := toInt_eq_toNat_of_nonneg l.b h0
  refine BitVec.eq_of_toNat_eq ?_
  rw [l.result_toNat, Nat.mod_eq_of_lt (by omega)]

/-- Everything R109 says of one body that the loop condition allows. -/
theorem LoopRegs.body_in_range (l : LoopRegs) (bk : Word32) (t : Nat) (hj : (t : Int) ≤ l.j.toInt)
    (hc : l.continues bk = true) :
    0 ≤ l.j.toInt ∧ l.j.toInt < bk.toInt ∧ l.numerator.toNat = l.j.toNat + 1 ∧
      l.j.toInt + 1 ≤ l.body.j.toInt ∧ l.body.j.toInt ≤ (2 ^ 31 - 1) * 2 ^ 31 := by
  have hj0 : 0 ≤ l.j.toInt := by omega
  have hnum := l.numerator_toNat bk hj0 hc
  have hnat := toInt_eq_toNat_of_nonneg l.j hj0
  exact ⟨hj0, (l.continues_iff bk).mp hc, by omega, l.body_j_bounds bk hj0 hc⟩

/-- With a bucket the loop runs `n + 1` bodies, at most `buckets`; its answer is the last index below the bucket count,
and the number of bodies (R106, R108). -/
theorem exists_last_body (key : Word64) (bk : Word32) (hbk : 1 ≤ bk.toInt) :
    ∃ n, n + 1 ≤ bk.toNat ∧ (∀ u ≤ n, (jumpRegs key u).continues bk = true) ∧
      (jumpRegs key (n + 1)).continues bk = false ∧ (n : Int) ≤ (jumpRegs key n).j.toInt ∧
      assign key bk =
        { data := (jumpRegs key n).j, status := Status.ok.code, iters := BitVec.ofNat 32 (n + 1) } := by
  obtain ⟨I, hI, hgo, hstop⟩ := exists_loop_exit key bk hbk
  cases I with
  | zero => simp [jumpRegs_zero_continues key bk hbk] at hstop
  | succ n =>
    have hj := le_jumpRegs_j key bk n fun u hu => hgo u (by omega)
    have hlt := ((jumpRegs key n).continues_iff bk).mp (hgo n n.lt_succ_self)
    have hresult : (jumpRegs key (n + 1)).result = (jumpRegs key n).j :=
      LoopRegs.result_eq_b (jumpRegs key n).body bk ((Int.natCast_nonneg n).trans hj) hlt
    refine ⟨n, hI, fun u hu => hgo u (by omega), hstop, hj, ?_⟩
    rw [assign_eq_of_loop_exit key bk (n + 1) hbk hI hgo hstop, hresult]

/-- Settles O40: each body that the condition allows is in range, and the last of them gives the result. -/
theorem assignLoopEndsInRange : Obligations.AssignLoopEndsInRange := by
  unfold Obligations.AssignLoopEndsInRange
  intro key bk hbk
  obtain ⟨n, hn, hgo, hstop, hj, hassign⟩ := exists_last_body key bk hbk
  refine ⟨n + 1, by omega, hn, fun t ht => ?_, hstop, hassign, (Int.natCast_nonneg n).trans hj,
    ((jumpRegs key n).continues_iff bk).mp (hgo n le_rfl)⟩
  have hc := hgo t (by omega)
  have hjt := le_jumpRegs_j key bk t fun u hu => hgo u (by omega)
  obtain ⟨hj0, hlt, hnum, hup, hmax⟩ := (jumpRegs key t).body_in_range bk t hjt hc
  exact ⟨hc, hj0, hlt, hjt, hnum, rfl, hup, hmax⟩

/-- The data of ASSIGN, as a number, is below the bucket count (R110). -/
theorem assign_data_toNat_lt (key : Word64) (bk : Word32) (hbk : 1 ≤ bk.toInt) :
    ((assign key bk).data.toNat : Int) < bk.toInt := by
  obtain ⟨n, -, hgo, -, -, hassign⟩ := exists_last_body key bk hbk
  rw [hassign, ← jumpRegs_j_toInt key bk n fun u hu => hgo u hu.le]
  exact ((jumpRegs key n).continues_iff bk).mp (hgo n le_rfl)

/-- Settles O41: the data is below a bucket count of at most 31 bits, so its low half has it whole and is not negative. -/
theorem assignResultIsABucket : Obligations.AssignResultIsABucket := by
  unfold Obligations.AssignResultIsABucket
  intro key bk hbk
  have hlt := assign_data_toNat_lt key bk hbk
  have hmax := @BitVec.toInt_lt 32 bk
  have hlow : ((assign key bk).data.setWidth 32).toNat = (assign key bk).data.toNat := by
    rw [BitVec.toNat_setWidth, Nat.mod_eq_of_lt (by omega)]
  have hint : ((assign key bk).data.setWidth 32).toInt = (assign key bk).data.toNat := by
    rw [BitVec.toInt_eq_toNat_of_lt (by omega), hlow]
  omega

/-- Settles O42: the only body is the first, so the result is index 0. -/
theorem assignOneBucketIsZero : Obligations.AssignOneBucketIsZero := by
  unfold Obligations.AssignOneBucketIsZero
  intro key
  obtain ⟨n, hn, -, -, -, hassign⟩ := exists_last_body key 1#32 (by decide)
  obtain rfl : n = 0 := Nat.le_zero.mp (Nat.le_of_succ_le_succ hn)
  exact hassign

end Sys2Proof.Machine
end

section
/-! The jump indices of a key (40_assign.md R112, R113): ASSIGN answers the largest one below the bucket count. -/

namespace Sys2Proof.Machine

/-- The largest bucket count, which is the end of the divider's domain (R109). -/
def maxBuckets : Word32 := 0x7FFFFFFF#32

/-- For the largest bucket count the loop condition is that the numerator stays in the divider's domain. -/
theorem continues_maxBuckets_iff (l : LoopRegs) : l.continues maxBuckets = true ↔ l.j.toInt < 2 ^ 31 - 1 :=
  l.continues_iff maxBuckets

/-- While the indices stay in the divider's domain they increase (R109). -/
theorem jumpRegs_j_mono (key : Word64) (bk : Word32) (m t : Nat) (hmt : m ≤ t)
    (h : ∀ u < t, (jumpRegs key u).continues bk = true) : (jumpRegs key m).j.toInt ≤ (jumpRegs key t).j.toInt := by
  induction t, hmt using Nat.le_induction with
  | base => exact le_rfl
  | succ t _ ih =>
    have hj := le_jumpRegs_j key bk t fun u hu => h u (by omega)
    have hm := ih fun u hu => h u (by omega)
    obtain ⟨-, -, -, hup, -⟩ := (jumpRegs key t).body_in_range bk t hj (h t t.lt_succ_self)
    exact hm.trans (by rw [jumpRegs]; omega)

/-- `J(key)` holds the indices that the loop of the largest bucket count goes through (R113). -/
theorem jumpIndex_iff (key : Word64) (v : Nat) :
    jumpIndex key v ↔
      ∃ t, (jumpRegs key t).j.toInt = v ∧ ∀ u < t, (jumpRegs key u).continues maxBuckets = true := by
  simp only [jumpIndex, continues_maxBuckets_iff]
  constructor
  · rintro ⟨t, hv, hgo⟩
    have hgoInt : ∀ u < t, (jumpRegs key u).j.toInt < 2 ^ 31 - 1 := fun u hu => by
      have := hgo u hu
      rw [BitVec.toInt_eq_toNat_of_lt (by omega)]
      omega
    refine ⟨t, ?_, hgoInt⟩
    rw [jumpRegs_j_toInt key maxBuckets t fun u hu => (continues_maxBuckets_iff _).mpr (hgoInt u hu), hv]
  · rintro ⟨t, hv, hgo⟩
    have hnat := fun m (hm : m ≤ t) => jumpRegs_j_toInt key maxBuckets m fun u hu =>
      (continues_maxBuckets_iff _).mpr (hgo u (by omega))
    refine ⟨t, by have := hnat t le_rfl; omega, fun u hu => ?_⟩
    have := hnat u hu.le
    have := hgo u hu
    omega

/-- ASSIGN answers the largest jump index below the bucket count (R113). -/
theorem assign_data_isGreatest (key : Word64) (bk : Word32) (hbk : 1 ≤ bk.toInt) :
    IsGreatest {u : Nat | jumpIndex key u ∧ (u : Int) < bk.toInt} (assign key bk).data.toNat := by
  obtain ⟨n, -, hgo, hstop, -, hassign⟩ := exists_last_body key bk hbk
  have hmax := @BitVec.toInt_lt 32 bk
  have hdata : (jumpRegs key n).j.toInt = (assign key bk).data.toNat := by
    rw [hassign, jumpRegs_j_toInt key bk n fun u hu => hgo u hu.le]
  refine ⟨⟨(jumpIndex_iff key _).mpr ⟨n, hdata, fun u hu => ?_⟩, assign_data_toNat_lt key bk hbk⟩, ?_⟩
  · have := ((jumpRegs key u).continues_iff bk).mp (hgo u hu.le)
    rw [continues_maxBuckets_iff]
    omega
  · rintro v ⟨hv, hvbk⟩
    obtain ⟨t, htv, hgot⟩ := (jumpIndex_iff key v).mp hv
    have htn : t ≤ n := by
      by_contra hnt
      have hexit := jumpRegs_j_mono key maxBuckets (n + 1) t (by omega) hgot
      have : ¬ (jumpRegs key (n + 1)).j.toInt < bk.toInt := by
        rw [← LoopRegs.continues_iff, hstop]
        simp
      omega
    have := jumpRegs_j_mono key bk t n htn fun u hu => hgo u hu.le
    omega

/-- The same for a bucket count given as a number, as R113 gives it. -/
theorem assign_ofNat_data_isGreatest (key : Word64) (N : Nat) (h1 : 1 ≤ N) (hN : N ≤ 2 ^ 31 - 1) :
    IsGreatest {u | jumpIndex key u ∧ u < N} (assign key (BitVec.ofNat 32 N)).data.toNat := by
  have hmod : N % 2 ^ 32 = N := Nat.mod_eq_of_lt (by omega)
  have hint : (BitVec.ofNat 32 N).toInt = N := by
    rw [BitVec.toInt_eq_toNat_of_lt (by rw [BitVec.toNat_ofNat]; omega), BitVec.toNat_ofNat, hmod]
  have := assign_data_isGreatest key (BitVec.ofNat 32 N) (by omega)
  simpa only [hint, Nat.cast_lt] using this

/-- Settles O43: one more bucket admits at most one more jump index, `N` itself. -/
theorem growingMovesKeysOnlyToTheNewBucket : Obligations.GrowingMovesKeysOnlyToTheNewBucket := by
  unfold Obligations.GrowingMovesKeysOnlyToTheNewBucket
  intro key N h1 hN
  have hold := assign_ofNat_data_isGreatest key N h1 hN
  refine ⟨⟨hold.1.1, hold.1.2, fun u hu hlt => hold.2 ⟨hu, hlt⟩⟩, fun hN1 => ?_⟩
  have hnew := assign_ofNat_data_isGreatest key (N + 1) (by omega) hN1
  refine ⟨fun hjump => hnew.unique ⟨⟨hjump, N.lt_succ_self⟩, fun u hu => Nat.le_of_lt_succ hu.2⟩, fun hjump => ?_⟩
  have hsame : {u | jumpIndex key u ∧ u < N + 1} = {u | jumpIndex key u ∧ u < N} := by
    ext u
    refine and_congr_right fun hu => ?_
    have hne : u ≠ N := fun h => hjump (h ▸ hu)
    omega
  exact (hsame ▸ hnew).unique hold

end Sys2Proof.Machine
end

section
/-! The cycle level of ASSIGN (40_assign.md R107): the block's run from the start of the loop, over any edges without reset
(70_reset_and_hazards.md R206, R211). -/

namespace Sys2Proof.Machine

/-- A stall edge adds nothing to a run of the block (R211). -/
theorem blockRun_cons_stall (e : EdgeIn) (es : List EdgeIn) (s : State) (hr : e.ports.rst = false)
    (hstall : e.stall = true) : blockRun (e :: es) s = blockRun es s := by
  refine blockRun_cons e es s s ?_
  rw [blockEdge, hstall, edgeKind_stall e.ports s.st hr]
  rfl

/-- In ITER a live edge is the loop's (R33). -/
theorem blockRun_cons_live (e : EdgeIn) (es : List EdgeIn) (s : State) (hr : e.ports.rst = false)
    (hlive : e.stall = false) (hst : s.st = .iter) : blockRun (e :: es) s = blockRun es s.loopEdge :=
  blockRun_cons e es s _ (by rw [hlive, blockEdge_iter e.ports s hr hst])

/-- Edges that are all stall edges change nothing. -/
theorem blockRun_of_liveEdges_zero (es : List EdgeIn) (s : State) (hr : ∀ e ∈ es, e.ports.rst = false)
    (hlive : liveEdges es = 0) : blockRun es s = .next s := by
  induction es with
  | nil => rfl
  | cons e es ih =>
    rw [liveEdges_cons] at hlive
    cases hstall : e.stall with
    | false => simp [hstall] at hlive
    | true =>
      rw [blockRun_cons_stall e es s (hr e (by simp)) hstall]
      exact ih (fun e' he' => hr e' (by simp [he'])) (by omega)

/-- While the loop condition holds, each live edge runs one body, and the block stays in ITER. -/
theorem blockRun_bodies (es : List EdgeIn) (s : State) (key : Word64) (n : Nat) (hr : ∀ e ∈ es, e.ports.rst = false)
    (hst : s.st = .iter) (hloop : s.loopRegs = jumpRegs key n)
    (hgo : ∀ u < n + liveEdges es, (jumpRegs key u).continues s.bk = true) :
    blockRun es s = .next (s.setLoopRegs (jumpRegs key (n + liveEdges es))) := by
  induction es generalizing s n with
  | nil =>
    change Host.Outcome.next s = .next (s.setLoopRegs (jumpRegs key n))
    rw [← hloop, State.setLoopRegs_loopRegs]
  | cons e es ih =>
    have hre := hr e (by simp)
    have hres : ∀ e' ∈ es, e'.ports.rst = false := fun e' he' => hr e' (by simp [he'])
    rw [liveEdges_cons] at hgo ⊢
    cases hstall : e.stall with
    | true =>
      simp only [hstall, if_true, Nat.zero_add] at hgo ⊢
      rw [blockRun_cons_stall e es s hre hstall, ih s n hres hst hloop hgo]
    | false =>
      simp only [hstall, Bool.false_eq_true, if_false, ← Nat.add_assoc] at hgo ⊢
      rw [blockRun_cons_live e es s hre hstall hst, s.loopEdge_body (hloop ▸ hgo n (by omega)), hloop,
        ih (s.setLoopRegs (jumpRegs key n).body) (n + 1) hres hst rfl hgo, State.setLoopRegs_setLoopRegs]

/-- From any body on, the live edge after the last one brings the response of the transaction level. -/
theorem blockRun_exit (es : List EdgeIn) (s : State) (key : Word64) (n I : Nat) (hr : ∀ e ∈ es, e.ports.rst = false)
    (hst : s.st = .iter) (hloop : s.loopRegs = jumpRegs key n) (hn : n ≤ I) (hlive : n + liveEdges es = I + 1)
    (hgo : ∀ u < I, (jumpRegs key u).continues s.bk = true) (hstop : (jumpRegs key I).continues s.bk = false) :
    ∃ u, blockRun es s = .next u ∧ u.st = .resp ∧
      u.rspRegs = { data := (jumpRegs key I).result, status := Status.ok.code, iters := (jumpRegs key I).it } := by
  induction es generalizing s n with
  | nil => simp [liveEdges] at hlive; omega
  | cons e es ih =>
    have hre := hr e (by simp)
    have hres : ∀ e' ∈ es, e'.ports.rst = false := fun e' he' => hr e' (by simp [he'])
    rw [liveEdges_cons] at hlive
    cases hstall : e.stall with
    | true =>
      rw [blockRun_cons_stall e es s hre hstall]
      exact ih s n hres hst hloop hn (by simpa [hstall] using hlive) hgo hstop
    | false =>
      have hlive' : n + 1 + liveEdges es = I + 1 := by simp [hstall] at hlive; omega
      rw [blockRun_cons_live e es s hre hstall hst]
      rcases hn.lt_or_eq with hlt | rfl
      · rw [s.loopEdge_body (hloop ▸ hgo n hlt), hloop]
        exact ih (s.setLoopRegs (jumpRegs key n).body) (n + 1) hres hst rfl hlt hlive' hgo hstop
      · rw [s.loopEdge_exit (hloop ▸ hstop), blockRun_of_liveEdges_zero es _ hres (by omega), ← hloop]
        exact ⟨_, rfl, rfl, rfl⟩

/-- Settles O44: the block's run from the start of the loop, over at most `I` and over `I + 1` live edges. -/
theorem assignLevelsAgree : Obligations.AssignLevelsAgree := by
  unfold Obligations.AssignLevelsAgree
  intro s key bk
  rcases lt_or_ge 0 bk.toInt with hbk | hbk
  · refine ⟨s.startLoop key bk, exec_assign_start key bk s hbk, fun h => absurd h (by omega), fun _ es hr => ?_⟩
    obtain ⟨n, hn, hgo, hstop, -, hassign⟩ := exists_last_body key bk hbk
    have hexit := assign_eq_of_jumpRegs_exit key bk (n + 1) hbk (fun u hu => hgo u (by omega)) hstop
    have hiters : (assign key bk).iters.toNat = n + 1 := by
      rw [hassign, BitVec.toNat_ofNat, Nat.mod_eq_of_lt (by omega)]
    rw [hiters]
    refine ⟨fun hlive => ?_, fun hlive => ?_⟩
    · exact ⟨_, blockRun_bodies es (s.startLoop key bk) key 0 hr rfl rfl fun u hu => hgo u (by omega), rfl⟩
    · obtain ⟨u, hu, hust, hrsp⟩ := blockRun_exit es (s.startLoop key bk) key 0 (n + 1) hr rfl rfl (Nat.zero_le _)
        (by omega) (fun u hu => hgo u (by omega)) hstop
      rw [← hexit] at hrsp
      exact ⟨u, hu, hust, congrArg Response.data hrsp, congrArg Response.status hrsp, congrArg Response.iters hrsp⟩
  · rw [assign_clamped key bk hbk]
    exact ⟨_, exec_assign_clamped key bk s hbk, fun _ => ⟨rfl, rfl, rfl, rfl⟩, fun h => absurd h (by omega)⟩

end Sys2Proof.Machine
end

section
/-! The LCG step (41_lcg_step.md): the operation of R131, and the inverse step of R132. -/

namespace Sys2Proof.Machine

/-- Settles O7: the decoder reads only `req_a`, and the accepting edge answers with R130's integer. -/
theorem lcgAnswersTheStep : Obligations.LcgAnswersTheStep := by
  unfold Obligations.LcgAnswersTheStep
  intro x b s
  refine ⟨decode_reqWord_lcg x b, ?_⟩
  rw [← lcgStep_eq_ofNat]
  exact exec_lcg x s

/-- `LCG_MUL` is odd, so it is invertible modulo 2^64 (R132). -/
theorem lcgMulInv_mul_lcgMul : Config.lcgMulInv * Config.lcgMul = 1#64 := by decide

/-- The inverse step undoes `LcgStep` (R132). -/
theorem lcgStepInv_lcgStep (x : Word64) : lcgStepInv (lcgStep x) = x := by
  rw [lcgStepInv, lcgStep, BitVec.add_sub_cancel, ← BitVec.mul_assoc, lcgMulInv_mul_lcgMul, BitVec.one_mul]

/-- `LcgStep` undoes the inverse step (R132). -/
theorem lcgStep_lcgStepInv (y : Word64) : lcgStep (lcgStepInv y) = y := by
  rw [lcgStep, lcgStepInv, ← BitVec.mul_assoc, BitVec.mul_comm Config.lcgMul, lcgMulInv_mul_lcgMul, BitVec.one_mul,
    BitVec.sub_add_cancel]

/-- Settles O31: the model's inverse step is the stated one, and it inverts `LcgStep` on both sides. -/
theorem lcgStepIsABijection : Obligations.LcgStepIsABijection := by
  unfold Obligations.LcgStepIsABijection
  exact fun x => ⟨lcgStepInv_lcgStep x, lcgStep_lcgStepInv x⟩

end Sys2Proof.Machine
end

section
/-! The unsigned right shift by 33 (42_unsigned_rshift.md): the range of R142, and the operation of R141. -/

namespace Sys2Proof.Machine

/-- The quotient of a 64-bit value by 2^33 has 31 bits (R142). -/
theorem ushr33_toNat_lt (x : Word64) : (ushr33 x).toNat < 2 ^ 31 := by
  have hx := x.isLt
  rw [ushr33_toNat]
  omega

/-- The shift fills with zeros, never with copies of bit 63 (R142). -/
theorem ushr33_getLsbD_of_le (x : Word64) (n : Nat) (hn : 31 ≤ n) : (ushr33 x).getLsbD n = false := by
  have hlt : (ushr33 x).toNat < 2 ^ n := (ushr33_toNat_lt x).trans_le (Nat.pow_le_pow_right (by decide) hn)
  rw [← BitVec.testBit_toNat]
  exact Nat.testBit_lt_two_pow hlt

/-- Settles O32: the two bounds and the zero bits all follow from the 31-bit range. -/
theorem ushr33Range : Obligations.Ushr33Range := by
  unfold Obligations.Ushr33Range
  intro x
  have hlt := ushr33_toNat_lt x
  exact ⟨Nat.le_sub_one_of_lt hlt, ushr33_getLsbD_of_le x, Nat.le_add_left 1 _, hlt⟩

/-- The shift as a word made from R140's integer. -/
theorem ushr33_eq_ofNat (x : Word64) : ushr33 x = BitVec.ofNat 64 (x.toNat / 2 ^ 33) := by
  rw [← ushr33_toNat, BitVec.ofNat_toNat, BitVec.setWidth_eq]

/-- Settles O8: the decoder reads only `req_a`, and the accepting edge answers with R140's quotient. -/
theorem ushr33AnswersTheShift : Obligations.Ushr33AnswersTheShift := by
  unfold Obligations.Ushr33AnswersTheShift
  intro x b s
  refine ⟨decode_reqWord_ushr33 x b, ?_⟩
  rw [← ushr33_eq_ofNat]
  exact exec_ushr33 x s

end Sys2Proof.Machine
end

section
/-! The reciprocal variate (43_fp_reciprocal.md): the fields of the word `RecipBits(s)` (R150), its exact value (R152, R153),
and the operation of R151. -/

namespace Sys2Proof.Machine

/-! ### The fields of a binary64 word (R150, R153) -/

@[simp] theorem extractLsb'_fraction (sign : BitVec 1) (expo : BitVec 11) (frac : BitVec 52) :
    (sign ++ expo ++ frac).extractLsb' 0 52 = frac :=
  BitVec.extractLsb'_append_eq_right

@[simp] theorem extractLsb'_exponent (sign : BitVec 1) (expo : BitVec 11) (frac : BitVec 52) :
    (sign ++ expo ++ frac).extractLsb' 52 11 = expo := by
  rw [BitVec.extractLsb'_append_eq_of_le le_rfl]
  exact BitVec.extractLsb'_append_eq_right

@[simp] theorem getLsbD_sign (sign : BitVec 1) (expo : BitVec 11) (frac : BitVec 52) :
    (sign ++ expo ++ frac).getLsbD 63 = sign.getLsbD 0 := by
  rw [BitVec.getLsbD_append, if_neg (by decide), BitVec.getLsbD_append, if_neg (by decide)]

/-! ### The fields of `RecipBits(s)` (R150) -/

/-- `m = s + 1` is at most 2^31, so `p = floor(log2 m)` is at most 31. -/
theorem log2_succ_le (v : Word31) : Nat.log2 (v.toNat + 1) ≤ 31 := by
  have hlt : v.toNat + 1 < 2 ^ 32 := by omega
  exact Nat.le_of_lt_succ ((Nat.log2_lt (Nat.succ_ne_zero _)).mpr hlt)

/-- The significand without its leading bit fits the 52-bit fraction. -/
theorem fraction_lt (m p : Nat) (hp : p ≤ 52) (hm : m < 2 ^ (p + 1)) : (m - 2 ^ p) * 2 ^ (52 - p) < 2 ^ 52 := by
  have hlow : m - 2 ^ p < 2 ^ p := by omega
  calc (m - 2 ^ p) * 2 ^ (52 - p) < 2 ^ p * 2 ^ (52 - p) := Nat.mul_lt_mul_of_pos_right hlow (Nat.two_pow_pos _)
    _ = 2 ^ 52 := pow_mul_pow_sub 2 hp

theorem recipBits_sign (v : Word31) : (recipBits v).getLsbD 63 = false :=
  getLsbD_sign _ _ _

theorem recipBits_exponent (v : Word31) :
    ((recipBits v).extractLsb' 52 11).toNat = Nat.log2 (v.toNat + 1) + 992 := by
  have hp := log2_succ_le v
  rw [recipBits, extractLsb'_exponent, BitVec.toNat_ofNat, Nat.mod_eq_of_lt (by omega)]

theorem recipBits_fraction (v : Word31) :
    ((recipBits v).extractLsb' 0 52).toNat =
      (v.toNat + 1 - 2 ^ Nat.log2 (v.toNat + 1)) * 2 ^ (52 - Nat.log2 (v.toNat + 1)) := by
  have hp := log2_succ_le v
  rw [recipBits, extractLsb'_fraction, BitVec.toNat_ofNat,
    Nat.mod_eq_of_lt (fraction_lt _ _ (by omega) Nat.lt_log2_self)]

/-- Settles O33: the two powers of 2 around `m` pin `p` to `floor(log2 m)`, and no field overflows. -/
theorem recipBitsFields : Obligations.RecipBitsFields := by
  unfold Obligations.RecipBitsFields
  intro v p hlow hhigh
  obtain rfl : Nat.log2 (v.toNat + 1) = p := (Nat.log2_eq_iff (Nat.succ_ne_zero _)).mpr ⟨hlow, hhigh⟩
  exact ⟨log2_succ_le v, recipBits_sign v, recipBits_exponent v, recipBits_fraction v⟩

/-! ### The value of `RecipBits(s)` (R152, R153) -/

/-- The leading 1 and the fraction field of `m` are `m` scaled to `[1, 2)`, and nothing is rounded. -/
theorem one_add_fraction (m p : Nat) (hp : p ≤ 52) (hm : 2 ^ p ≤ m) :
    1 + (((m - 2 ^ p) * 2 ^ (52 - p) : Nat) : ℚ) / 2 ^ 52 = m / 2 ^ p := by
  rw [← pow_mul_pow_sub 2 hp, Nat.cast_mul, Nat.cast_sub hm, Nat.cast_pow, Nat.cast_pow, Nat.cast_ofNat,
    mul_div_mul_right _ _ (by positivity), sub_div, div_self (by positivity), add_sub_cancel]

/-- The power of 2 of the exponent field `p + 992`, without its bias (R153). -/
theorem two_zpow_exponent (p : Nat) : (2 : ℚ) ^ (((p + 992 : Nat) : Int) - 1023) = 2 ^ p / 2 ^ 31 := by
  rw [show ((p + 992 : Nat) : Int) - 1023 = (p : Int) - (31 : Nat) by omega, zpow_sub₀ two_ne_zero, zpow_natCast,
    zpow_natCast]

/-- R152: the word is normal, and its value is `Recip(s)` itself. -/
theorem binary64Value_recipBits (v : Word31) : binary64Value (recipBits v) = some (recip v.toNat) := by
  have hp := log2_succ_le v
  have hsig := one_add_fraction (v.toNat + 1) _ (by omega) (Nat.log2_self_le (Nat.succ_ne_zero v.toNat))
  have hnormal : 1 ≤ Nat.log2 (v.toNat + 1) + 992 ∧ Nat.log2 (v.toNat + 1) + 992 ≤ 2046 := by omega
  simp only [binary64Value, recipBits_sign, recipBits_exponent, recipBits_fraction]
  rw [if_pos hnormal, if_neg Bool.false_ne_true, one_mul, hsig, two_zpow_exponent, div_mul_div_cancel₀ (by positivity), recip,
    Nat.cast_succ]

/-- R152: a larger shifted state gives a larger variate. -/
theorem recip_strictMono : StrictMono recip := by
  intro s t hst
  have hst : (s : ℚ) < t := by exact_mod_cast hst
  rw [recip, recip]
  gcongr

theorem recip_zero : recip 0 = 1 / 2 ^ 31 := by
  rw [recip, Nat.cast_zero, zero_add]

theorem recip_max : recip (2 ^ 31 - 1) = 1 := by norm_num [recip]

/-- Settles O34: the value is exact, and the bounds are the variates of the least and the greatest shifted state. -/
theorem recipIsExact : Obligations.RecipIsExact := by
  unfold Obligations.RecipIsExact
  intro v
  have hmax : v.toNat ≤ 2 ^ 31 - 1 := Nat.le_sub_one_of_lt v.isLt
  refine ⟨binary64Value_recipBits v, ?_, ?_, fun v' hlt => recip_strictMono hlt⟩
  · rw [← recip_zero]
    exact recip_strictMono.monotone (Nat.zero_le _)
  · rw [← recip_max]
    exact recip_strictMono.monotone hmax

/-! ### The operation (R151) -/

/-- Settles O9: the decoder reads only `req_a[30:0]`, and the accepting edge answers with `RecipBits(s)`; R151's five words
are computed. -/
theorem recipAnswersTheVariate : Obligations.RecipAnswersTheVariate := by
  unfold Obligations.RecipAnswersTheVariate
  refine ⟨fun a b s => ⟨decode_reqWord_recip a b, exec_recip _ s⟩, ?_⟩
  decide

end Sys2Proof.Machine
end

section
/-! The floor divider (44_floor_divider.md): the operation of R163, the range of R162 and the monotonicity of R164, which
the rounded quotient over the rationals gives; and the table values of R165 and R166. -/

namespace Sys2Proof.Machine

/-! ### The algorithm and the operation (R160, R161, R163) -/

/-- Settles O36: R160's quotient by `Recip(s)` is R161's quotient of naturals, whose rounding the algorithm computes. -/
theorem floorDivIsTheRoundedQuotient : Obligations.FloorDivIsTheRoundedQuotient := by
  unfold Obligations.FloorDivIsTheRoundedQuotient
  intro n s _ hs
  exact floorDivNat_eq_floorDivReal n s hs

/-- The divider's output, as the pattern of R160's integer. -/
theorem floorDiv_eq_ofNat (n : Word32) (v : Word31) :
    floorDiv n v = BitVec.ofNat 64 (floorDivReal n.toNat v.toNat) := by
  rw [← floorDivNat_eq_floorDivReal _ _ (Nat.le_sub_one_of_lt v.isLt), floorDiv]

/-- Settles O10: the decoder reads only `req_a[31:0]` and `req_b[30:0]`, and the accepting edge answers with R160's
quotient. -/
theorem floordivAnswersTheRoundedQuotient : Obligations.FloordivAnswersTheRoundedQuotient := by
  unfold Obligations.FloordivAnswersTheRoundedQuotient
  intro a b s n v
  refine ⟨decode_reqWord_floordiv a b, ?_⟩
  rw [← floorDiv_eq_ofNat]
  exact exec_floordiv n v s

/-! ### Truncation (R11) and the quotient before its rounding (R160) -/

theorem truncNonneg_eq_natFloor (x : ℚ) : truncNonneg x = ⌊x⌋₊ := Int.floor_toNat x

theorem truncNonneg_mono : Monotone truncNonneg := fun x y h => by
  rw [truncNonneg_eq_natFloor, truncNonneg_eq_natFloor]
  exact Nat.floor_mono h

theorem recip_pos (s : Nat) : 0 < recip s := by
  rw [recip]
  positivity

/-- The exact quotient grows with `n` and falls with `s`. -/
theorem div_recip_le_div_recip (n n' s s' : Nat) (hn : n ≤ n') (hs : s' ≤ s) :
    (n : ℚ) / recip s ≤ n' / recip s' :=
  div_le_div₀ (Nat.cast_nonneg n') (Nat.cast_le.mpr hn) (recip_pos s') (recip_strictMono.monotone hs)

/-- For `n >= 1` the divider truncates the rounded quotient. -/
theorem floorDivNat_eq_truncNonneg_fl (n s : Nat) (hn : n ≠ 0) (hs : s ≤ 2 ^ 31 - 1) :
    floorDivNat n s = truncNonneg (fl (n / recip s)) := by
  rw [floorDivNat_eq_floorDivReal n s hs, floorDivReal, if_neg hn]

/-! ### The range (R162) -/

/-- R162's maximum, where the quotient `n * 2^31` needs no rounding. -/
theorem floorDivNat_max : floorDivNat (2 ^ 32 - 1) 0 = 0x7FFFFFFF80000000 := by decide

/-- A truncation between two positive naturals bounds what was truncated. -/
theorem mem_Ico_of_truncNonneg (x : ℚ) (lo hi : Nat) (hlo : lo ≠ 0) (hle : lo ≤ truncNonneg x)
    (hlt : truncNonneg x < hi) : (lo : ℚ) ≤ x ∧ x < hi := by
  rw [truncNonneg_eq_natFloor] at hle hlt
  exact ⟨(Nat.le_floor_iff' hlo).mp hle, (Nat.floor_lt' (by omega)).mp hlt⟩

/-- Settles O37: the bounds of the result are those of the integer algorithm, and they bound the rounded quotient, of
which the result is the truncation. -/
theorem floorDivRange : Obligations.FloorDivRange := by
  unfold Obligations.FloorDivRange
  refine ⟨fun n s hn hmax hs => ?_, floorDivNat_zero, floorDivNat_max⟩
  have hlo := le_floorDivNat n s hmax hs
  have hhi := floorDivNat_le n s hmax
  have hlt : floorDivNat n s < 2 ^ 63 := by omega
  have htrunc := floorDivNat_eq_truncNonneg_fl n s (by omega) hs
  obtain ⟨hone, htop⟩ := mem_Ico_of_truncNonneg (fl (n / recip s)) 1 (2 ^ 63) one_ne_zero
    (by rw [← htrunc]; omega) (by rw [← htrunc]; exact hlt)
  exact ⟨hlo, hhi, hlt, by exact_mod_cast hone, by exact_mod_cast htop, fun hloop => by omega⟩

/-! ### Monotonicity (R164) -/

/-- Rounding to an integer is monotone: with the same integer part, a tie goes the same way. -/
theorem nearestEven_mono : Monotone nearestEven := by
  intro x y hxy
  rcases (Int.floor_mono hxy).lt_or_eq with hlt | heq
  · calc nearestEven x ≤ ⌊x⌋ + 1 :=
          (nearestEven_mem_Icc x _ (⌊x⌋ + 1) (Int.floor_le x) (by exact_mod_cast Int.lt_floor_add_one x)).2
      _ ≤ ⌊y⌋ := Int.add_one_le_of_lt hlt
      _ ≤ nearestEven y :=
          (nearestEven_mem_Icc y _ (⌊y⌋ + 1) (Int.floor_le y) (by exact_mod_cast Int.lt_floor_add_one y)).1
  · rcases nearestEven_cases x with ⟨hx, -, -⟩ | ⟨hx, hxhalf, hxodd⟩ <;>
      rcases nearestEven_cases y with ⟨hy, hyhalf, hyeven⟩ | ⟨hy, -, -⟩
    case inr.inl =>
      rw [heq] at hxhalf hxodd
      have := hxodd (by linarith)
      have := hyeven (by linarith)
      omega
    all_goals omega

/-- The power of 2 at or below a rational, in units in its last place. -/
theorem two_zpow_log (q : ℚ) : (2 : ℚ) ^ Int.log 2 q = (2 ^ 52 : Int) * ulp q := by
  rw [Int.cast_pow, Int.cast_ofNat, ulp, ← zpow_natCast, ← zpow_add₀ two_ne_zero]
  congr 1
  ring

/-- The rounded value stays between the powers of 2 around a positive rational. -/
theorem fl_mem_Icc (q : ℚ) (hq : 0 < q) : 2 ^ Int.log 2 q ≤ fl q ∧ fl q ≤ 2 ^ (Int.log 2 q + 1) := by
  obtain ⟨hlo, hhi⟩ := significand_bounds q hq
  obtain ⟨hm, hm'⟩ := nearestEven_mem_Icc (q / ulp q) (2 ^ 52) (2 ^ 53) (by exact_mod_cast hlo) (by exact_mod_cast hhi)
  have hhigh : (2 : ℚ) ^ (Int.log 2 q + 1) = (2 ^ 53 : Int) * ulp q := by
    rw [zpow_add_one₀ two_ne_zero, two_zpow_log]
    push_cast
    ring
  rw [fl_eq_nearestEven, two_zpow_log, hhigh]
  exact ⟨mul_le_mul_of_nonneg_right (Int.cast_le.mpr hm) (ulp_pos q).le,
    mul_le_mul_of_nonneg_right (Int.cast_le.mpr hm') (ulp_pos q).le⟩

/-- `fl` is monotone (R164): below the same power of 2 the significands are rounded in the same unit, and a power of 2
between the two rationals is between their rounded values. -/
theorem fl_le_fl (q q' : ℚ) (hq : 0 < q) (h : q ≤ q') : fl q ≤ fl q' := by
  rcases (Int.log_mono_right (b := 2) hq h).lt_or_eq with hlt | heq
  · calc fl q ≤ 2 ^ (Int.log 2 q + 1) := (fl_mem_Icc q hq).2
      _ ≤ 2 ^ Int.log 2 q' := zpow_le_zpow_right₀ one_le_two (Int.add_one_le_of_lt hlt)
      _ ≤ fl q' := (fl_mem_Icc q' (hq.trans_le h)).1
  · have hulp : ulp q = ulp q' := by rw [ulp, ulp, heq]
    have hsig : q / ulp q' ≤ q' / ulp q' := div_le_div_of_nonneg_right h (ulp_pos q').le
    rw [fl_eq_nearestEven, fl_eq_nearestEven, hulp]
    exact mul_le_mul_of_nonneg_right (Int.cast_le.mpr (nearestEven_mono hsig)) (ulp_pos q').le

/-- Settles O38: the exact quotient, `fl` and `trunc` are each monotone; for `n = 0` the result is 0. -/
theorem floorDivMonotone : Obligations.FloorDivMonotone := by
  unfold Obligations.FloorDivMonotone
  intro n n' s s' hn _ hs hmax
  rcases Nat.eq_zero_or_pos n with rfl | hpos
  · rw [floorDivNat_zero]
    exact Nat.zero_le _
  · have hquot : 0 < (n : ℚ) / recip s := div_pos (Nat.cast_pos.mpr hpos) (recip_pos s)
    rw [floorDivNat_eq_truncNonneg_fl n s hpos.ne' hmax, floorDivNat_eq_truncNonneg_fl n' s' (by omega) (hs.trans hmax)]
    exact truncNonneg_mono (fl_le_fl _ _ hquot (div_recip_le_div_recip n n' s s' hn hs))

/-! ### Table values (R165, R166) -/

/-- Settles O39: the algorithm is run on the tables' four pairs of operands. -/
theorem floorDivTableValues : Obligations.FloorDivTableValues := by
  unfold Obligations.FloorDivTableValues
  decide

end Sys2Proof.Machine
end

section
/-! No exception, no trap, one status (60_exceptions.md R180, R182, R183; the host's invalid read, 70_reset_and_hazards.md
R205). -/

namespace Sys2Proof.Machine

/-! ### The status of a response (R183) -/

/-- An ASSIGN that is not clamped ends with `OK`, however long its loop runs (R100, R102). -/
theorem assign_status (key : Word64) (buckets : Word32) :
    (assign key buckets).status = if buckets.toInt ≤ 0 then Status.clamped.code else Status.ok.code := by
  split_ifs with h
  · rw [assign_clamped key buckets h]
  · simp [assign, (clampTest_eq_false_iff buckets).mpr (by omega)]

/-- The status at the transaction level, opcode by opcode: only ASSIGN's depends on an operand. -/
theorem respond_status_reqWord (op : OpBits) (a : Word64) (b : Word32) :
    (respond (decode (reqWord op a b))).status =
      if op = 0b101#3 ∨ op = 0b110#3 ∨ op = 0b111#3 then 0b10#2
      else if op = 0b000#3 ∧ b.toInt ≤ 0 then 0b01#2
      else 0b00#2 := by
  rcases opBits_cases op with rfl | rfl | rfl | rfl | rfl | rfl | rfl | rfl
  · rw [decode_reqWord_assign, respond, assign_status]
    simp [Status.code]
  · rw [decode_reqWord_lcg]; rfl
  · rw [decode_reqWord_ushr33]; rfl
  · rw [decode_reqWord_recip]; rfl
  · rw [decode_reqWord_floordiv]; rfl
  · rw [decode_reqWord_reserved101]; rfl
  · rw [decode_reqWord_reserved110]; rfl
  · rw [decode_reqWord_reserved111]; rfl

/-- An accepting edge that answers at once writes the transaction level's response. -/
theorem rspRegs_of_exec_resp (i : Instr) (s t : State) (h : exec i s = .next t) (hst : t.st = .resp) :
    t.rspRegs = respond i := by
  rcases exec_respond_cases i s with ⟨data, status, hi, -, hresp⟩ | ⟨key, buckets, -, -, hi, -⟩
  · obtain rfl := Host.Outcome.next.inj (h.symm.trans hi)
    rw [State.rspRegs_answer, hresp]
  · obtain rfl := Host.Outcome.next.inj (h.symm.trans hi)
    rw [State.startLoop_st] at hst
    cases hst

/-- Settles O15: the transaction level follows R183's order, and an edge that answers at once writes its response. -/
theorem oneStatusPerResponse : Obligations.OneStatusPerResponse := by
  unfold Obligations.OneStatusPerResponse
  intro op a b i status
  have hstatus : (respond i).status = status := respond_status_reqWord op a b
  refine ⟨hstatus, fun s t h hst => ?_⟩
  calc t.rs = (respond i).status := congrArg Response.status (rspRegs_of_exec_resp i s t h hst)
    _ = status := hstatus

/-! ### Reserved opcodes (R182) -/

/-- Settles O11: the decoder reads none of the operands, and each of the three operations is the `ILLEGAL_OP` answer. -/
theorem reservedOpcodesAnswerIllegalOp : Obligations.ReservedOpcodesAnswerIllegalOp := by
  unfold Obligations.ReservedOpcodesAnswerIllegalOp
  refine ⟨fun a b => ?_, fun i s hi => ?_⟩
  · exact ⟨decode_reqWord_reserved101 a b, decode_reqWord_reserved110 a b, decode_reqWord_reserved111 a b⟩
  · rcases hi with rfl | rfl | rfl
    · exact exec_reserved101 s
    · exact exec_reserved110 s
    · exact exec_reserved111 s

/-! ### What stops and what faults (R180, R205) -/

/-- Settles O14: an operation answers at once, in RESP, or starts the loop, in ITER. -/
theorem noOperationStops : Obligations.NoOperationStops := by
  unfold Obligations.NoOperationStops
  intro i s
  rcases exec_cases i with ⟨data, status, -, h⟩ | ⟨key, buckets, -, -, h⟩
  · exact ⟨_, h s, .inl (s.answer_st data status 0#32)⟩
  · exact ⟨_, h s, .inr (s.startLoop_st key buckets)⟩

/-- A host read at a time when `rsp_valid = 0` faults the step, whatever the edge would do (R205). -/
theorem step_invalid_read (s : State) (hread : s.samples = true) (hst : s.st ≠ .resp) :
    step s = .fault .rspReadWhileInvalid := by
  rw [step, s.sampled_invalid hread hst]

/-- Without a read, or with one in RESP, the host's side does not fault (R205). -/
theorem State.exists_sampled_ok (s : State) (h : ¬ (s.samples = true ∧ s.st ≠ .resp)) :
    ∃ seen, s.sampled = .ok seen := by
  cases hread : s.samples with
  | false => exact ⟨none, s.sampled_none hread⟩
  | true => exact ⟨_, s.sampled_resp hread (not_not.mp fun hst => h ⟨hread, hst⟩)⟩

/-- Settles O27: the block's edge always answers a next state, so only the host's read can fault the step. -/
theorem onlyAnInvalidReadFaults : Obligations.OnlyAnInvalidReadFaults := by
  unfold Obligations.OnlyAnInvalidReadFaults
  refine fun s => ⟨fun ⟨hread, hst⟩ => step_invalid_read s hread hst, fun h => ?_⟩
  obtain ⟨seen, hseen⟩ := s.exists_sampled_ok h
  obtain ⟨u, hu⟩ := exists_blockEdge_next s.ports s.stallNow s
  exact ⟨_, step_of_blockEdge s u seen hseen hu⟩

end Sys2Proof.Machine
end

section
/-! Reset edges and stall edges (70_reset_and_hazards.md R200, R202, R206, R207, R211): what they write, that nothing is
transferred at one, and a request sent again after a reset. -/

namespace Sys2Proof.Machine

/-! ### Edges that transfer nothing -/

/-- Only an edge of the kind `accept` or `deliver` transfers anything (R204, R205). -/
theorem State.no_transfer_of_kind (s : State) (hacc : ∀ v, s.kind ≠ .accept v) (hdel : s.kind ≠ .deliver) :
    s.accepted = none ∧ s.delivered = none := by
  refine ⟨Option.eq_none_iff_forall_ne_some.mpr fun i hi => ?_, s.delivered_eq_none_iff.mpr hdel⟩
  obtain ⟨v, hv⟩ := s.accepted_eq_some i hi
  exact hacc v hv

theorem State.no_transfer_of_reset (s : State) (h : s.kind = .reset) : s.accepted = none ∧ s.delivered = none :=
  s.no_transfer_of_kind (by simp [h]) (by simp [h])

theorem State.no_transfer_of_stall (s : State) (h : s.kind = .stall) : s.accepted = none ∧ s.delivered = none :=
  s.no_transfer_of_kind (by simp [h]) (by simp [h])

/-! ### What the block writes at them -/

/-- Reset wins over the draw, the state and every other input (R200; over the draw: log 6). -/
theorem blockEdge_reset (p : PortIn) (stall : Bool) (s : State) (hr : p.rst = true) :
    blockEdge p stall s = .next s.resetEdge := by
  rw [blockEdge, edgeKind_reset p stall s.st hr]

theorem blockEdge_stall (p : PortIn) (s : State) (hr : p.rst = false) : blockEdge p true s = .next s := by
  rw [blockEdge, edgeKind_stall p s.st hr, State.stallEdge_eq]

/-- Settles O22: the reset edge is one write of `st`. -/
theorem resetEdgeKeepsOtherRegisters : Obligations.ResetEdgeKeepsOtherRegisters := by
  unfold Obligations.ResetEdgeKeepsOtherRegisters
  intro p stall s hr
  rw [blockEdge_reset p stall s hr, State.resetEdge]

/-- Settles O21: an edge with `rst = 1` is of the kind `reset`, which transfers nothing and leads to IDLE. -/
theorem resetEdgeGoesToIdle : Obligations.ResetEdgeGoesToIdle := by
  unfold Obligations.ResetEdgeGoesToIdle
  refine ⟨fun s hr => s.no_transfer_of_reset (edgeKind_reset _ _ _ hr), fun p stall s hr => ?_⟩
  exact ⟨s.resetEdge, blockEdge_reset p stall s hr, s.resetEdge_st, rfl, rfl⟩

/-- Settles O23: a drawn stall makes the edge of the kind `stall`, or `reset` where reset wins, and neither transfers
anything. -/
theorem stallEdgeChangesNothing : Obligations.StallEdgeChangesNothing := by
  unfold Obligations.StallEdgeChangesNothing
  refine ⟨blockEdge_stall, fun s hstall => ?_⟩
  cases hr : s.ports.rst with
  | true => exact s.no_transfer_of_reset (edgeKind_reset _ _ _ hr)
  | false => exact s.no_transfer_of_stall (by rw [State.kind, hstall, edgeKind_stall _ _ hr])

/-! ### A request sent again after a reset -/

/-- RESET takes one edge from any state and at any draw: the block is in IDLE, and the host has read nothing and goes on
(R78, R200). -/
theorem step_reset (s : State) (rest : List HostAction) (hscript : s.script = .reset :: rest) :
    step s = .next (s.resetEdge.setHost rest s.stalls.tail) := by
  have haction : s.action = .reset := s.action_eq _ rest hscript (by simp)
  have hsampled : s.sampled = .ok none := s.sampled_none (by rw [State.samples, haction])
  have hrst : s.ports.rst = true := by rw [State.ports, haction, HostAction.ports_reset_rst]
  rw [step_of_blockEdge s _ none hsampled (blockEdge_reset _ _ s hrst)]
  simp [State.hostAfter, State.setHost, State.resetEdge, hscript]

/-- Settles O48: the reset edge leads to IDLE, and from there a request line and its WAIT run as O47 says. -/
theorem reissueAfterResetGetsTheResponse : Obligations.ReissueAfterResetGetsTheResponse := by
  unfold Obligations.ReissueAfterResetGetsTheResponse
  intro s w rest hstalls hscript
  have hstep := step_reset s (.request w :: .wait :: rest) hscript
  rw [hstalls, List.tail_nil] at hstep
  obtain ⟨t, hrun, hend⟩ := requestThenWaitRecordsTheResponse (s.resetEdge.setHost _ []) w rest rfl rfl rfl
  exact ⟨t, (run_step _ s _ hstep).trans hrun, hend⟩

end Sys2Proof.Machine
end
